-- ==== Sys2Proof/Word.lean ====
section
/-! DEFINITION. The two widths of the block: a byte on the wire and a 16-bit host word (spec 00_scope.md R6, 10_state.md R30). -/
namespace Sys2Proof

/-- A transferred value: 8 bits, bit 7 the most significant (R6). -/
abbrev Byte := BitVec 8

/-- A command word or a host register: 16 bits (R30, R70). -/
abbrev Word := BitVec 16

end Sys2Proof
end

