-- ==== Sys2Proof/Config.lean ====
section
/-! DEFINITION. What an implementation fixes (the parameters of spec 00_scope.md R5) and the free values of the model. -/
namespace Sys2Proof

/-- The parameters R5 calls model arguments, fixed for one block (R33). They are kept as plain data in `State.params`, which no
command writes, so that a statement about every state holds for every choice of them (log entry 1). -/
structure Params where
  /-- `CLOCK_LINE`, the identity of the clock line (R5, R47). -/
  clockLine : Nat
  /-- `DATA_LINE`, the identity of the data line (R5, R47). -/
  dataLine : Nat
  /-- `MAX_POLLS`, the most device-ready polls of one exchange (R5, R153). -/
  maxPolls : Nat
  /-- `POLL_MS`, milliseconds between two polls (R5, R153). -/
  pollMs : Nat
  /-- `T_DELAY` in microseconds; only the nominal durations of R230 and R231 read it. -/
  tDelay : Nat
  deriving DecidableEq, Repr

/-- The defaults of R5: 160 polls (D9), 5 ms, about 1 microsecond. The two line identities are left to the platform (R47); the
numbers 0 and 1 only keep them apart (DESIGN CHOICE, log entry 1). -/
def Params.default : Params where
  clockLine := 0
  dataLine := 1
  maxPolls := 160
  pollMs := 5
  tDelay := 1

namespace Config

/-- `CRC_POLY` (R5, R131). -/
def crcPoly : Byte := 0x31

/-- `SEED_MASK` (R5, R133). -/
def seedMask : Byte := 0x0F

/-- `CMD_TEMP`, the device command byte of a temperature exchange (R65). -/
def cmdTemp : Byte := 0x03

/-- `CMD_HUMI`, the device command byte of a humidity exchange (R65). -/
def cmdHumi : Byte := 0x05

/-- `CMD_SOFTRESET`, the byte sent by `SRST` and `OPEN` (R65). -/
def cmdSoftReset : Byte := 0x1E

/-- `RESET_PULSES`, the clock pulses of the reset sequence (R101). -/
def resetPulses : Nat := 9

/-- `SETTLE_MS`, the wait after a soft reset (R160). -/
def settleMs : Nat := 11

/-- `POWERUP_MS`, the wait after `OPEN` has configured the lines (R165). -/
def powerupMs : Nat := 20

/-- A free bit: an answer of the device that `State.device` does not list (R51), or a host read of an unwritten flag (U2). -/
opaque freeBit : Nat → Bool

/-- A free byte: a read of an unwritten 8-bit register (93_implementation_defined.md U1, U2). -/
opaque freeByte : Nat → Byte

/-- A free 16-bit value: a host read of an unwritten `VALUE` (U2). -/
opaque freeWord : Nat → Word

end Config

end Sys2Proof
end

