-- ==== Sys2Proof/Syntax.lean ====
section
/-! DEFINITION. The seventeen commands of the opcode map (spec 30_encoding.md R72), the fields of a raw command word (R70) and the
names under which a reserved word is rejected (R74). -/
namespace Sys2Proof

/-- One constructor per row of the opcode map R72. The one operand a command can have is its `IMM8` byte (R71); that of `READB` is
the single bit `sendAck`. -/
inductive Instr where
  /-- `CKH`, `ClockHigh` (R90). -/
  | ckh
  /-- `CKL`, `ClockLow` (R91). -/
  | ckl
  /-- `DLO`, `DataAssertLow` (R92). -/
  | dlo
  /-- `DRL`, `DataRelease` (R93). -/
  | drl
  /-- `DLY`, `Delay` (R94). -/
  | dly
  /-- `TSTART`, the transmission-start sequence (R100). -/
  | tstart
  /-- `CRESET`, the reset sequence (R101). -/
  | creset
  /-- `SENDB v`, send a byte (R110). -/
  | sendb (v : Byte)
  /-- `READB a`, read a byte; `a` is true for `ACK` (R115). -/
  | readb (a : Bool)
  /-- `MIRR b`, reverse the bits of a byte (R132). -/
  | mirr (b : Byte)
  /-- `SEED`, seed the accumulator (R135). -/
  | seed
  /-- `FOLD b`, fold a byte into the accumulator (R136). -/
  | fold (b : Byte)
  /-- `CHECK b`, compare a received checksum byte (R137). -/
  | check (b : Byte)
  /-- `MEAS c`, one measurement exchange (R150). -/
  | meas (c : Byte)
  /-- `SRST`, the soft reset (R160). -/
  | srst
  /-- `OPEN`: configure and initialise (R165). -/
  | openLines
  /-- `CLOSE`: release both lines (R167). -/
  | closeLines
  deriving DecidableEq, Repr

/-- The three fields of a raw command word, before it is known to be a command (R70). -/
structure Fields where
  /-- `GRP`, bits 15 to 12: the family. -/
  grp : BitVec 4
  /-- `FN`, bits 11 to 8: the operation within the family. -/
  fn : BitVec 4
  /-- `IMM8`, bits 7 to 0: the operand. -/
  imm : Byte
  deriving DecidableEq, Repr

/-- Why a word is reserved: the clauses of R74. -/
inductive IllegalWord where
  /-- `GRP` 0 or 6 to 15. -/
  | reservedGroup
  /-- A family of R72 with an `FN` it does not have. -/
  | reservedFunction
  /-- A command without operand with `IMM8` not 0. -/
  | operandNotZero
  /-- `READB` with `IMM8[7:1]` not 0. -/
  | readAckReservedBits
  deriving DecidableEq, Repr

/-- What the decoder answers (R73): the command of the one row that matches, or the name of the rejection. -/
inductive Decoded where
  | command (i : Instr)
  | illegal (why : IllegalWord)
  deriving DecidableEq, Repr

end Sys2Proof
end

