-- ==== Sys2Proof/WellFormed.lean ====
section
/-! DEFINITION. Which raw command words are well formed: the four checks of spec 30_encoding.md R74, written from that rule and not
from the opcode map's masks. A term of `Instr` has no ill-formed operand: the types of its operands hold exactly the values R71
admits, so the checks stand on the fields of the raw word. -/
namespace Sys2Proof

/-- How many operations a family has: `FN` 0 to one less are assigned (R72, R74); 0 for a reserved family. -/
def Fields.functions (f : Fields) : Nat :=
  match f.grp.toNat with
  | 1 => 5
  | 2 => 2
  | 3 => 2
  | 4 => 4
  | 5 => 4
  | _ => 0

/-- Check 1 (R74): the family is one of 1 to 5. -/
def Fields.groupOk (f : Fields) : Bool := f.functions != 0

/-- Check 2 (R74): the family has that operation. -/
def Fields.functionOk (f : Fields) : Bool := decide (f.fn.toNat < f.functions)

/-- The commands that use all of `IMM8` (R71): `SENDB`, `MIRR`, `FOLD`, `CHECK`, `MEAS`. -/
def Fields.takesByte (f : Fields) : Bool :=
  (f.grp, f.fn) ∈ [(3#4, 0#4), (4#4, 0#4), (4#4, 2#4), (4#4, 3#4), (5#4, 0#4)]

/-- Whether the fields name `READB` (R72). -/
def Fields.isReadb (f : Fields) : Bool := f.grp == 3 && f.fn == 1

/-- Check 3 (R71, R74): a command without operand has `IMM8` 0. -/
def Fields.noOperandOk (f : Fields) : Bool := f.takesByte || f.isReadb || f.imm == 0

/-- Check 4 (R71, R74): `READB` has `IMM8[7:1]` 0. -/
def Fields.readbOk (f : Fields) : Bool := !f.isReadb || f.imm.extractLsb' 1 7 == 0

/-- A legal command word (R74): all four checks hold. -/
def Fields.wellFormed (f : Fields) : Bool := f.groupOk && f.functionOk && f.noOperandOk && f.readbOk

/-- The name under which a word that is not well formed is rejected, the checks in the order of R74 (DESIGN
CHOICE, log entry 11). -/
def Fields.whyIllegal (f : Fields) : IllegalWord :=
  if !f.groupOk then .reservedGroup
  else if !f.functionOk then .reservedFunction
  else if f.isReadb then .readAckReservedBits
  else .operandNotZero

end Sys2Proof
end

