-- ==== Sys2Proof/Decode.lean ====
section
/-! DEFINITION. The decoder of command words, total on all 65536 words (spec 30_encoding.md R73), and the encoder, both written from
the opcode map R72. -/
namespace Sys2Proof

/-- The fields of a command word (R70). -/
def fieldsOf (w : Word) : Fields where
  grp := w.extractLsb' 12 4
  fn := w.extractLsb' 8 4
  imm := w.extractLsb' 0 8

/-- A row of the opcode map: the command is selected when the word masked equals the pattern (R72, R73). -/
structure OpcodeRow where
  mask : Word
  pattern : Word
  build : Byte → Instr

/-- The opcode map R72, in its order. -/
def opcodeRows : List OpcodeRow :=
  [ ⟨0xFFFF, 0x1000, fun _ => .ckh⟩,
    ⟨0xFFFF, 0x1100, fun _ => .ckl⟩,
    ⟨0xFFFF, 0x1200, fun _ => .dlo⟩,
    ⟨0xFFFF, 0x1300, fun _ => .drl⟩,
    ⟨0xFFFF, 0x1400, fun _ => .dly⟩ ] ++
  [ ⟨0xFFFF, 0x2000, fun _ => .tstart⟩,
    ⟨0xFFFF, 0x2100, fun _ => .creset⟩ ] ++
  [ ⟨0xFF00, 0x3000, fun ii => .sendb ii⟩,
    ⟨0xFFFE, 0x3100, fun ii => .readb (ii.getLsbD 0)⟩ ] ++
  [ ⟨0xFF00, 0x4000, fun ii => .mirr ii⟩,
    ⟨0xFFFF, 0x4100, fun _ => .seed⟩,
    ⟨0xFF00, 0x4200, fun ii => .fold ii⟩,
    ⟨0xFF00, 0x4300, fun ii => .check ii⟩ ] ++
  [ ⟨0xFF00, 0x5000, fun ii => .meas ii⟩,
    ⟨0xFFFF, 0x5100, fun _ => .srst⟩,
    ⟨0xFFFF, 0x5200, fun _ => .openLines⟩,
    ⟨0xFFFF, 0x5300, fun _ => .closeLines⟩ ]

/-- Whether a row selects a word: `(W & mask) == match` (R73). -/
def rowMatches (w : Word) (r : OpcodeRow) : Bool := (w &&& r.mask) == r.pattern

/-- The decoder (R73): the one row that matches, its operand `IMM8`; a word no row matches is rejected by name (R74). -/
def decode (w : Word) : Decoded :=
  match opcodeRows.find? (rowMatches w) with
  | some r => .command (r.build (fieldsOf w).imm)
  | none => .illegal (fieldsOf w).whyIllegal

/-- The instruction a decoded word stands for, if it is a command. -/
def Decoded.instr? : Decoded → Option Instr
  | .command i => some i
  | .illegal _ => none

/-- A command word from its three fields (R70). -/
def commandWord (grp fn : BitVec 4) (imm : Byte) : Word := grp ++ fn ++ imm

/-- The encoder (R70, R72): `GRP`, `FN` and `IMM8` of each command. -/
def encode : Instr → Word
  | .ckh => commandWord 1 0 0
  | .ckl => commandWord 1 1 0
  | .dlo => commandWord 1 2 0
  | .drl => commandWord 1 3 0
  | .dly => commandWord 1 4 0
  | .tstart => commandWord 2 0 0
  | .creset => commandWord 2 1 0
  | .sendb v => commandWord 3 0 v
  | .readb a => commandWord 3 1 (if a then 1 else 0)
  | .mirr b => commandWord 4 0 b
  | .seed => commandWord 4 1 0
  | .fold b => commandWord 4 2 b
  | .check b => commandWord 4 3 b
  | .meas c => commandWord 5 0 c
  | .srst => commandWord 5 1 0
  | .openLines => commandWord 5 2 0
  | .closeLines => commandWord 5 3 0

/-- The word the host asks about: its low `nbits` bits, every bit above them 0. A command is one whole 16-bit word (R76;
log entry 14). -/
def tableWord (nbits w : Nat) : Word := BitVec.ofNat 16 (w % 2 ^ nbits)

/-- The instruction the decoder reads from the table's word; `none` where it refuses. -/
def decodeTableWord (nbits w : Nat) : Option Instr := (decode (tableWord nbits w)).instr?

/-- The pseudo-instruction `TEMP` (R79). -/
def pseudoTemp : List Instr := [.meas Config.cmdTemp]

/-- The pseudo-instruction `HUMI` (R79). -/
def pseudoHumi : List Instr := [.meas Config.cmdHumi]

/-- The pseudo-instruction `MEASALL`: two exchanges in this order (R79, R168). -/
def pseudoMeasAll : List Instr := pseudoTemp ++ pseudoHumi

end Sys2Proof
end

