-- ==== Sys2Proof/Machine/State.lean ====
section
/-! DEFINITION. The state of one block (spec 10_state.md R10), the events of its observation (00_scope.md R8), and the state right
after reset (R32). All plain data. -/
namespace Sys2Proof.Machine

open Sys2Proof

/-- The clock line as the block drives it (R16): `off` is not configured. -/
inductive ClockLine where
  | off
  | low
  | high
  deriving DecidableEq, Repr

/-- The data line as the block drives it (R17): `rel` is released; the block has no way to drive it high. -/
inductive DataLine where
  | off
  | low
  | rel
  deriving DecidableEq, Repr

/-- The exchange state (R26), in the order of its codes 0 to 6; code 7 is reserved and never written. -/
inductive XState where
  | idle
  | started
  | awaitingReady
  | readingData
  | verified
  | failed
  | timedOut
  deriving DecidableEq, Repr

/-- The fault register `ERR` (R25, R180): all four codes of its two bits. -/
inductive ErrCode where
  | noFault
  | notOpen
  | illegalCommand
  | hardwareFault
  deriving DecidableEq, Repr

/-- One entry of the observation (R8). The line of a configuration or release event is the identity the parameters give it. -/
inductive Event where
  | ckHigh
  | ckLow
  | dtLow
  | dtRel
  | delay
  | sleepMs (n : Nat)
  | sample (v : Bool)
  | cfgOutLow (line : Nat)
  | relLine (line : Nat)
  deriving DecidableEq, Repr

/-- The five primitives of the signal sequencer, of which every sequence is a list (spec 40_sequencer_primitives.md, 41_sequences.md R102). -/
inductive Prim where
  | clockHigh
  | clockLow
  | dataAssertLow
  | dataRelease
  | delay
  deriving DecidableEq, Repr

/-- The reasons the model can stop with a fault. The block's own faults (R180) are no stop: they are recorded in `ERR` and the next
command is taken (R187), so they are next states. -/
inductive Fault where
  /-- The failure of the line hardware (R183). Raised by no definition of the model, as the spec's model has no step that does
  (decision D16, log entry 4). Unsafe: runs in which the lines fail are absent. -/
  | lineHardwareFailed
  deriving DecidableEq, Repr

/-- The reasons an access has no meaning. -/
inductive Refusal where
  /-- An instruction without a meaning yet; raised by no arm of `exec`. Safe: the machine stops. -/
  | notModelled (mnemonic : String)
  /-- A host access to a register number of 10 or above, which does not exist (R30: "refused by the host interface"). Raised by
  `hostRead` and `hostWrite`, by no command. Safe: the access stops. -/
  | noSuchHostRegister (number : Nat)
  deriving DecidableEq, Repr

/-- The state of one block. The fields down to `halted` are the spec's (R10). A register that R32 calls "unwritten" holds no value
and is `none`: "the model represents it as absent"; a read of it is a free draw, never a fault (log entry 2). The last five fields
are the model's own (log entries 1, 3, 5). -/
structure State where
  /-- `OPEN`, the lifecycle flag (R13). -/
  isOpen : Bool
  /-- `SR`, the status-register byte (R14). -/
  sr : Byte
  /-- `CRC`, the checksum accumulator (R15). -/
  crc : Option Byte
  /-- `CK`, the clock line (R16). -/
  ck : ClockLine
  /-- `DT`, the data line (R17). -/
  dt : DataLine
  /-- `ACK`, the last send was acknowledged (R18). -/
  ack : Option Bool
  /-- `RX`, the last byte read (R19). -/
  rx : Option Byte
  /-- `RES`, the result of `MIRR` (R20). -/
  res : Option Byte
  /-- `VALUE`, the raw reading (R21). -/
  value : Option Word
  /-- `RXCRC`, the device's checksum byte (R22). -/
  rxcrc : Option Byte
  /-- `SUCC`, the last exchange succeeded (R23). -/
  succ : Option Bool
  /-- `TOUT`, the last exchange timed out (R23). -/
  tout : Option Bool
  /-- `MATCH`, the last checksum comparison was equal (R23). -/
  matched : Option Bool
  /-- `ERR`, the fault code of the most recent command (R25). -/
  err : ErrCode
  /-- `XSTATE`, the exchange state (R26). -/
  xstate : XState
  /-- `POLLCNT`, the polls of the current or last exchange (R27), as wide as `MAX_POLLS` needs. -/
  pollcnt : Nat
  /-- `TRACE`, the events performed since the start, oldest first (R28). -/
  trace : List Event
  /-- `HALTED`, a hardware fault is recorded (R29). -/
  halted : Bool
  /-- The parameters of this block (R5, R33); no command writes them. -/
  params : Params
  /-- The host's list of command words (R12, R215), loaded from outside the block. -/
  program : List Word
  /-- The index into `program` of the next command (R12). -/
  index : Nat
  /-- The answers the device will give, next first (R51; the "device stream" of 95_test_vectors.md). After the last of them every
  answer is a free bit. -/
  device : List Bool
  /-- How many free values have been drawn; the next one is the free value of this number. -/
  draws : Nat
  deriving DecidableEq, Repr

/-- The block with parameters `p` after hardware reset (R32, R210): no program, nothing listed of the device, no free value drawn. -/
def State.powerOn (p : Params) : State where
  isOpen := false
  sr := 0x00
  crc := none
  ck := .off
  dt := .off
  ack := none
  rx := none
  res := none
  value := none
  rxcrc := none
  succ := none
  tout := none
  matched := none
  err := .noFault
  xstate := .idle
  pollcnt := 0
  trace := []
  halted := false
  params := p
  program := []
  index := 0
  device := []
  draws := 0

/-- The machine right after reset, with the default parameters of R5. -/
def State.reset : State := State.powerOn Params.default

end Sys2Proof.Machine
end

