-- ==== Sys2Proof/Machine/Crc.lean ====
section
/-! DEFINITION. The two pure functions of the checksum engine (spec 43_checksum_engine.md R130, R131) and the seed (R133). -/
namespace Sys2Proof.Machine

open Sys2Proof

/-- `mirror`: the bits of a byte in reverse order, bit 7 becoming bit 0 (R130). -/
def mirror (b : Byte) : Byte :=
  BitVec.ofBool (b.getLsbD 0) ++ BitVec.ofBool (b.getLsbD 1) ++ BitVec.ofBool (b.getLsbD 2) ++ BitVec.ofBool (b.getLsbD 3) ++
    BitVec.ofBool (b.getLsbD 4) ++ BitVec.ofBool (b.getLsbD 5) ++ BitVec.ofBool (b.getLsbD 6) ++ BitVec.ofBool (b.getLsbD 7)

/-- One bit-update of the accumulator `a` by the input byte `b` (R131): the top bit of `a ^ b` decides whether the shifted
accumulator is combined with the polynomial. -/
def foldBit (a b : Byte) : Byte :=
  if (a ^^^ b).getLsbD 7 then (a <<< 1) ^^^ Config.crcPoly else a <<< 1

/-- `n` bit-updates, the input byte shifted left after each (R131). -/
def foldBits : Nat → Byte → Byte → Byte
  | 0, a, _ => a
  | n + 1, a, b => foldBits n (foldBit a b) (b <<< 1)

/-- `fold`: the CRC-8 update of accumulator `a` with byte `b`, eight bit-updates, most significant bit first (R131). -/
def crcFold (a b : Byte) : Byte := foldBits 8 a b

/-- The seed of the accumulator: `mirror(SR & 0x0F)` (R133). -/
def seedOf (sr : Byte) : Byte := mirror (sr &&& Config.seedMask)

end Sys2Proof.Machine
end

