-- ==== Sys2Proof/Machine/Flags.lean ====
section
/-! DEFINITION. How each flag is computed, and the codes under which the host reads them (spec 10_state.md R23 to R26). -/
namespace Sys2Proof.Machine

open Sys2Proof

/-- The acknowledgment flag of a send: sampled 0 means acknowledged (R63, R112). -/
def ackFlag (sampled : Bool) : Bool := !sampled

/-- The final check: `mirror(CRC)` against the received checksum byte (R138). -/
def checksumFlag (crc received : Byte) : Bool := mirror crc == received

/-- The exchange state a verification ends in (R155, R157). -/
def verdict (m : Bool) : XState := if m then .verified else .failed

/-- The two bits of `ERR` (R25, R180). -/
def ErrCode.code : ErrCode → BitVec 2
  | .noFault => 0
  | .notOpen => 1
  | .illegalCommand => 2
  | .hardwareFault => 3

/-- The three bits of `XSTATE` (R26). -/
def XState.code : XState → BitVec 3
  | .idle => 0
  | .started => 1
  | .awaitingReady => 2
  | .readingData => 3
  | .verified => 4
  | .failed => 5
  | .timedOut => 6

/-- The host's `STATUS` word, from bit 15 down: seven reserved zeros, `HALTED`, `XSTATE`, `TOUT`, `SUCC`, `MATCH`, `ACK`, `OPEN` (R24). -/
def statusWord (halted : Bool) (x : XState) (tout succ matched ack isOpen : Bool) : Word :=
  0#7 ++ BitVec.ofBool halted ++ x.code ++ BitVec.ofBool tout ++ BitVec.ofBool succ ++ BitVec.ofBool matched ++
    BitVec.ofBool ack ++ BitVec.ofBool isOpen

end Sys2Proof.Machine
end

