-- ==== Sys2Proof/Machine/Operands.lean ====
section
/-! DEFINITION. The operand forms of the commands (spec 30_encoding.md R71) and the order of bits and bytes on the wire
(20_memory.md R41, R42). -/
namespace Sys2Proof.Machine

open Sys2Proof

/-- The bits of a byte in the order they go on the wire, bit 7 first (R41, R110). -/
def bitsMsbFirst (v : Byte) : List Bool :=
  [v.getLsbD 7, v.getLsbD 6, v.getLsbD 5, v.getLsbD 4, v.getLsbD 3, v.getLsbD 2, v.getLsbD 1, v.getLsbD 0]

/-- A byte with one more received bit below those already there. -/
def pushBit (r : Byte) (b : Bool) : Byte := (r <<< 1) ||| (if b then 1 else 0)

/-- The byte received as a list of bits, bit 7 first (R41, R68). -/
def byteOfBits (bs : List Bool) : Byte := bs.foldl pushBit 0

/-- The 16-bit reading, high byte first: `(h << 8) | l` computed in 16 bits (R42, R155). -/
def assembleValue (h l : Byte) : Word := (h.zeroExtend 16 <<< 8) ||| l.zeroExtend 16

end Sys2Proof.Machine
end

