-- ==== Sys2Proof/Machine/Ops.lean ====
section
/-! DEFINITION. The shared operations: the block's primitives (spec 00_scope.md R7), the data line and the device (20_memory.md R50,
R51), reads of unwritten registers, and the acceptance and the faults of a command (60_exceptions.md R186, R187). -/
namespace Sys2Proof.Machine

open Sys2Proof

/-- `emit(e)`: append one event to the observation (R7, R28). -/
def emit (e : Event) (s : State) : State := { s with trace := s.trace ++ [e] }

/-- `SetClock(High)` (R7, R90). -/
def clockHigh (s : State) : State := emit .ckHigh { s with ck := .high }

/-- `SetClock(Low)` (R7, R91). -/
def clockLow (s : State) : State := emit .ckLow { s with ck := .low }

/-- `SetData(Low)` (R7, R92). -/
def dataAssertLow (s : State) : State := emit .dtLow { s with dt := .low }

/-- `SetData(Rel)` (R7, R93). -/
def dataRelease (s : State) : State := emit .dtRel { s with dt := .rel }

/-- `Pause()` (R7, R94). -/
def pause (s : State) : State := emit .delay s

/-- `Sleep(n)`, n in milliseconds (R7). -/
def sleep (n : Nat) (s : State) : State := emit (.sleepMs n) s

/-- One primitive of the sequencer (R90 to R94). -/
def perform (p : Prim) (s : State) : State :=
  match p with
  | .clockHigh => clockHigh s
  | .clockLow => clockLow s
  | .dataAssertLow => dataAssertLow s
  | .dataRelease => dataRelease s
  | .delay => pause s

/-- A list of primitives, in order, none skipped or merged (R46, R97, R102). -/
def performAll : List Prim → State → State
  | [], s => s
  | p :: ps, s => performAll ps (perform p s)

/-- The device oracle `dev()`: its next answer, true where the device lets the line read high (R51). When no answer is listed any more
the answer is a free bit (log entry 3). -/
def dev (s : State) : Bool × State :=
  match s.device with
  | v :: rest => (v, { s with device := rest })
  | [] => (Config.freeBit s.draws, { s with draws := s.draws + 1 })

/-- `Sample()`: 0 while the block drives the line low, else the device's answer (R50, R95;
DEDUCED for a line that is not configured, which R50 rules out, log entry 10). -/
def sample (s : State) : Bool × State :=
  match s.dt with
  | .low => (false, emit (.sample false) s)
  | .off => ((dev s).1, emit (.sample (dev s).1) (dev s).2)
  | .rel => ((dev s).1, emit (.sample (dev s).1) (dev s).2)

/-- A clock pulse during which nothing is sampled (R103). -/
def pulse : List Prim := [.clockHigh, .delay, .clockLow, .delay]

/-- A clock pulse during which the data line is sampled, after the delay that follows the rising edge (R103, R112, R116). -/
def samplePulse (s : State) : Bool × State :=
  let sampled := sample (performAll [.clockHigh, .delay] s)
  (sampled.1, performAll [.clockLow, .delay] sampled.2)

/-- `CfgOutLow(CLOCK_LINE)`: the clock line becomes an output driven low (R8, R165). -/
def configureClock (s : State) : State := emit (.cfgOutLow s.params.clockLine) { s with ck := .low }

/-- `CfgOutLow(DATA_LINE)`: the data line becomes an output driven low (R8, R165). -/
def configureData (s : State) : State := emit (.cfgOutLow s.params.dataLine) { s with dt := .low }

/-- `RelLine(CLOCK_LINE)`: the clock line is given up (R8, R167). -/
def releaseClock (s : State) : State := emit (.relLine s.params.clockLine) { s with ck := .off }

/-- `RelLine(DATA_LINE)`: the data line is given up (R8, R167). -/
def releaseData (s : State) : State := emit (.relLine s.params.dataLine) { s with dt := .off }

/-- Read an 8-bit register: its value, or a free byte while it is unwritten (U1, U2). -/
def readByteReg (r : Option Byte) (s : State) : Byte × State :=
  match r with
  | some v => (v, s)
  | none => (Config.freeByte s.draws, { s with draws := s.draws + 1 })

/-- Read a flag: its value, or a free bit while it is unwritten (U2). -/
def readFlag (r : Option Bool) (s : State) : Bool × State :=
  match r with
  | some v => (v, s)
  | none => (Config.freeBit s.draws, { s with draws := s.draws + 1 })

/-- Read a 16-bit register: its value, or a free word while it is unwritten (U2). -/
def readWordReg (r : Option Word) (s : State) : Word × State :=
  match r with
  | some v => (v, s)
  | none => (Config.freeWord s.draws, { s with draws := s.draws + 1 })

/-- `CRC <- mirror(SR & 0x0F)` (R133). -/
def seedCrc (s : State) : State := { s with crc := some (seedOf s.sr) }

/-- `CRC <- fold(CRC, b)` (R131, R136); an unwritten `CRC` reads as a free byte (U1). -/
def foldCrc (b : Byte) (s : State) : State :=
  let old := readByteReg s.crc s
  { old.2 with crc := some (crcFold old.1 b) }

/-- `mirror(CRC) == b` (R138), with the state after the read of `CRC`. -/
def checkCrc (b : Byte) (s : State) : Bool × State :=
  let old := readByteReg s.crc s
  (checksumFlag old.1 b, old.2)

/-- `raise`: record the fault code and change nothing else, but that a hardware fault is fatal (R183, R187). Control goes nowhere:
there is no handler, no vector and no saved state; the next command is taken normally (R187, R188). -/
def raiseFault (code : ErrCode) (s : State) : State :=
  match code with
  | .hardwareFault => { s with err := .hardwareFault, halted := true }
  | .illegalCommand => { s with err := .illegalCommand }
  | .notOpen => { s with err := .notOpen }
  | .noFault => s

/-- A command is accepted: `ERR <- 0` before its body runs (R187). -/
def accept (s : State) : State := { s with err := .noFault }

/-- The checks before a decoded command, in the order of R186, then its body. `needsOpen` is false for `OPEN` and `CLOSE` alone (R181). -/
def runCommand (needsOpen : Bool) (body : State → State) (s : State) : Host.Outcome State Fault Refusal :=
  if s.halted then .next (raiseFault .hardwareFault s)
  else if needsOpen && !s.isOpen then .next (raiseFault .notOpen s)
  else .next (body (accept s))

end Sys2Proof.Machine
end

