-- ==== Sys2Proof/Machine/Checksum.lean ====
section
/-! DEFINITION. The four commands of the checksum engine (spec 43_checksum_engine.md R132, R135 to R137); none appends an event. -/
namespace Sys2Proof.Machine

open Sys2Proof

/-- `RES <- mirror(b)` (R132). -/
def mirrBody (b : Byte) (s : State) : State := { s with res := some (mirror b) }

/-- `MIRR b` (R132). -/
def execMirr (b : Byte) (s : State) : Host.Outcome State Fault Refusal := runCommand true (mirrBody b) s

/-- `SEED` (R135). -/
def execSeed (s : State) : Host.Outcome State Fault Refusal := runCommand true seedCrc s

/-- `FOLD b` (R136). -/
def execFold (b : Byte) (s : State) : Host.Outcome State Fault Refusal := runCommand true (foldCrc b) s

/-- `MATCH <- (mirror(CRC) == b)` (R137). -/
def checkBody (b : Byte) (s : State) : State :=
  let compared := checkCrc b s
  { compared.2 with matched := some compared.1 }

/-- `CHECK b` (R137). -/
def execCheck (b : Byte) (s : State) : Host.Outcome State Fault Refusal := runCommand true (checkBody b) s

end Sys2Proof.Machine
end

