-- ==== Sys2Proof/Machine/Sequences.lean ====
section
/-! DEFINITION. The two canonical sequences of the signal sequencer (spec 41_sequences.md R100, R101). -/
namespace Sys2Proof.Machine

open Sys2Proof

/-- The transmission-start sequence, twelve primitives (R100). -/
def tstartPrims : List Prim :=
  [.clockHigh, .delay, .dataAssertLow, .delay, .clockLow, .delay, .clockHigh, .delay, .dataRelease, .delay, .clockLow, .delay]

/-- The reset sequence: release, then nine clock pulses (R101). -/
def cresetPrims : List Prim := [.dataRelease, .delay] ++ (List.replicate Config.resetPulses pulse).flatten

/-- `TSTART` (R100). -/
def execTstart (s : State) : Host.Outcome State Fault Refusal := runCommand true (performAll tstartPrims) s

/-- `CRESET` (R101). -/
def execCreset (s : State) : Host.Outcome State Fault Refusal := runCommand true (performAll cresetPrims) s

end Sys2Proof.Machine
end

