-- ==== Sys2Proof/Machine/Transceiver.lean ====
section
/-! DEFINITION. The byte transceiver (spec 42_byte_transceiver.md R110 to R117). It neither reads nor writes `CRC` (R118). -/
namespace Sys2Proof.Machine

open Sys2Proof

/-- `SendBit(b)`, eight primitives (R111). -/
def sendBitPrims (b : Bool) : List Prim :=
  [.clockLow, .delay, if b then .dataRelease else .dataAssertLow, .delay, .clockHigh, .delay, .clockLow, .delay]

/-- `SendAckPhase()`, the ninth pulse of a send (R112): the acknowledgment flag and the state after it. -/
def sendAckPhase (s : State) : Bool × State :=
  let sampled := samplePulse (performAll [.dataRelease, .delay] s)
  (ackFlag sampled.1, sampled.2)

/-- `Send(v)`, the body of `SENDB` (R110). -/
def sendByte (v : Byte) (s : State) : State :=
  let acked := sendAckPhase (performAll ((bitsMsbFirst v).flatMap sendBitPrims) s)
  { acked.2 with ack := some acked.1 }

/-- `n` received bits, `ReadBit()` each (R116), the first received first. -/
def readBits : Nat → State → List Bool × State
  | 0, s => ([], s)
  | n + 1, s =>
    let first := samplePulse s
    let others := readBits n first.2
    (first.1 :: others.1, others.2)

/-- `ReadAckPhase()`, the block's acknowledgment of a received byte (R117). -/
def readAckPrims : List Prim := [.dataAssertLow, .delay, .clockHigh, .delay, .clockLow, .delay, .dataRelease, .delay]

/-- `Read(a)`, the body of `READB` (R115): the assembled byte and the state after it. -/
def readByte (a : Bool) (s : State) : Byte × State :=
  let bits := readBits 8 s
  let r := byteOfBits bits.1
  (r, { performAll (if a then readAckPrims else []) bits.2 with rx := some r })

/-- The body of `READB` as a command: the byte stays in `RX` (R115). -/
def readBody (a : Bool) (s : State) : State := (readByte a s).2

/-- `SENDB v` (R110). -/
def execSendb (v : Byte) (s : State) : Host.Outcome State Fault Refusal := runCommand true (sendByte v) s

/-- `READB a` (R115). -/
def execReadb (a : Bool) (s : State) : Host.Outcome State Fault Refusal := runCommand true (readBody a) s

end Sys2Proof.Machine
end

