-- ==== Sys2Proof/Machine/Exchange.lean ====
section
/-! DEFINITION. The exchange controller: `MEAS`, `SRST`, `OPEN`, `CLOSE` (spec 44_exchange_controller.md R150 to R167). -/
namespace Sys2Proof.Machine

open Sys2Proof

/-- The exchange begins, before the first primitive of the start sequence (R150, R157). -/
def measBegin (s : State) : State := { s with pollcnt := 0, xstate := .started }

/-- Steps 1 and 2: the start sequence, the seed, the command byte, its fold; then the exchange awaits the device (R151, R152, R157). -/
def measCommand (c : Byte) (s : State) : State :=
  let sent := sendByte c (seedCrc (performAll tstartPrims s))
  { foldCrc c sent with xstate := .awaitingReady }

/-- An exchange up to the wait (R150 to R152). -/
def measStart (c : Byte) (s : State) : State := measCommand c (measBegin s)

/-- One poll: sleep first, then sample, then count it (R153). -/
def poll (s : State) : Bool × State :=
  let sampled := sample (sleep s.params.pollMs s)
  (sampled.1, { sampled.2 with pollcnt := sampled.2.pollcnt + 1 })

/-- The bounded wait, with the number of polls still allowed (R153): whether the device became ready, and the state after the last
poll. It ends at the first poll that reads low. -/
def waitReady : Nat → State → Bool × State
  | 0, s => (false, s)
  | n + 1, s =>
    let polled := poll s
    if polled.1 then waitReady n polled.2 else (true, polled.2)

/-- The timeout outcome (R156). -/
def measTimeout (s : State) : State :=
  { s with succ := some false, tout := some true, value := some 0, xstate := .timedOut }

/-- Step 5: compare, write the outcome, assemble the value (R155). -/
def measVerify (h l k : Byte) (s : State) : State :=
  let compared := checkCrc k s
  { compared.2 with
    matched := some compared.1
    succ := some compared.1
    tout := some false
    value := some (assembleValue h l)
    xstate := verdict compared.1 }

/-- A poll has read low: the data are read next (R150, R157). -/
def measEnterRead (s : State) : State := { s with xstate := .readingData }

/-- Steps 4 and 5: the three reads, the two folds, the verification (R154, R155). -/
def measTransfer (s : State) : State :=
  let high := readByte true s
  let low := readByte true high.2
  let sum := readByte false low.2
  let stored := { sum.2 with rxcrc := some sum.1 }
  measVerify high.1 low.1 sum.1 (foldCrc low.1 (foldCrc high.1 stored))

/-- An exchange from the poll that read low to its end (R150, R154, R155). -/
def measRead (s : State) : State := measTransfer (measEnterRead s)

/-- The whole exchange (R150). -/
def measBody (c : Byte) (s : State) : State :=
  let waited := waitReady s.params.maxPolls (measStart c s)
  if waited.1 then measRead waited.2 else measTimeout waited.2

/-- The body of `SRST`: reset sequence, start, `0x1E`, settle, back to idle (R160). -/
def softReset (s : State) : State :=
  let sent := sendByte Config.cmdSoftReset (performAll tstartPrims (performAll cresetPrims s))
  { sleep Config.settleMs sent with xstate := .idle }

/-- The body of `OPEN`: nothing while open, else configure, wait, soft reset (R165). -/
def openBody (s : State) : State :=
  if s.isOpen then s
  else { softReset (sleep Config.powerupMs (configureData (configureClock s))) with isOpen := true }

/-- The body of `CLOSE`: nothing while closed, else release both lines; the results lose their values (R167). -/
def closeBody (s : State) : State :=
  if s.isOpen then
    { releaseData (releaseClock s) with
      isOpen := false
      xstate := .idle
      crc := none
      ack := none
      rx := none
      res := none
      value := none
      rxcrc := none
      succ := none
      tout := none
      matched := none }
  else s

/-- `MEAS c` (R150). -/
def execMeas (c : Byte) (s : State) : Host.Outcome State Fault Refusal := runCommand true (measBody c) s

/-- `SRST` (R160). -/
def execSrst (s : State) : Host.Outcome State Fault Refusal := runCommand true softReset s

/-- `OPEN` (R165). -/
def execOpen (s : State) : Host.Outcome State Fault Refusal := runCommand false openBody s

/-- `CLOSE` (R167). -/
def execClose (s : State) : Host.Outcome State Fault Refusal := runCommand false closeBody s

end Sys2Proof.Machine
end

