-- ==== Sys2Proof/Machine/Primitives.lean ====
section
/-! DEFINITION. The five primitives as commands (spec 40_sequencer_primitives.md R90 to R94). -/
namespace Sys2Proof.Machine

open Sys2Proof

/-- `CKH` (R90). -/
def execCkh (s : State) : Host.Outcome State Fault Refusal := runCommand true clockHigh s

/-- `CKL` (R91). -/
def execCkl (s : State) : Host.Outcome State Fault Refusal := runCommand true clockLow s

/-- `DLO` (R92). -/
def execDlo (s : State) : Host.Outcome State Fault Refusal := runCommand true dataAssertLow s

/-- `DRL` (R93). -/
def execDrl (s : State) : Host.Outcome State Fault Refusal := runCommand true dataRelease s

/-- `DLY` (R94): the event is the whole effect. -/
def execDly (s : State) : Host.Outcome State Fault Refusal := runCommand true pause s

end Sys2Proof.Machine
end

