-- ==== Sys2Proof/Machine/Dispatch.lean ====
section
/-! DEFINITION. exec: one arm per command, each one call of its meaning (spec 30_encoding.md R72). -/
namespace Sys2Proof.Machine

open Sys2Proof

def exec (i : Instr) (s : State) : Host.Outcome State Fault Refusal :=
  match i with
  | .ckh => Sys2Proof.Machine.execCkh s
  | .ckl => Sys2Proof.Machine.execCkl s
  | .dlo => Sys2Proof.Machine.execDlo s
  | .drl => Sys2Proof.Machine.execDrl s
  | .dly => Sys2Proof.Machine.execDly s
  | .tstart => Sys2Proof.Machine.execTstart s
  | .creset => Sys2Proof.Machine.execCreset s
  | .sendb v => Sys2Proof.Machine.execSendb v s
  | .readb a => Sys2Proof.Machine.execReadb a s
  | .mirr b => Sys2Proof.Machine.execMirr b s
  | .seed => Sys2Proof.Machine.execSeed s
  | .fold b => Sys2Proof.Machine.execFold b s
  | .check b => Sys2Proof.Machine.execCheck b s
  | .meas c => Sys2Proof.Machine.execMeas c s
  | .srst => Sys2Proof.Machine.execSrst s
  | .openLines => Sys2Proof.Machine.execOpen s
  | .closeLines => Sys2Proof.Machine.execClose s

end Sys2Proof.Machine
end

