-- ==== Sys2Proof/Machine/HostPort.lean ====
section
/-! DEFINITION. The host's side of the block: the numbered registers (spec 10_state.md R30), the command port (30_encoding.md R70,
60_exceptions.md R186) and the host's list of commands (R12, R215). -/
namespace Sys2Proof.Machine

open Sys2Proof

/-- A word written to `CMD` (R70, R186): the hardware-fault check, the decoding, then the command; a reserved word raises
`IllegalCommand` (R182). -/
def runWord (w : Word) (s : State) : Host.Outcome State Fault Refusal :=
  if s.halted then .next (raiseFault .hardwareFault s)
  else
    match decode w with
    | .command i => exec i s
    | .illegal _ => .next (raiseFault .illegalCommand s)

/-- A host write to register `n` (R30): register 0 takes a command, a write to a read-only register has no effect (R24;
DEDUCED for the others, log entry 6), a number of 10 or above is refused. -/
def hostWrite (n : Nat) (w : Word) (s : State) : Host.Outcome State Fault Refusal :=
  match n with
  | 0 => runWord w s
  | m + 1 => if m + 1 ≤ 9 then .next s else .refused (.noSuchHostRegister (m + 1))

/-- The host's view of the flags, `STATUS` (R24); each unwritten flag reads as a free bit (U2). -/
def readStatus (s : State) : Word × State :=
  let a := readFlag s.ack s
  let m := readFlag s.matched a.2
  let c := readFlag s.succ m.2
  let t := readFlag s.tout c.2
  (statusWord s.halted s.xstate t.1 c.1 m.1 a.1 s.isOpen, t.2)

/-- An 8-bit register as the host reads it, zero-extended (R30). -/
def readNarrow (r : Option Byte) (s : State) : Word × State :=
  let v := readByteReg r s
  (v.1.zeroExtend 16, v.2)

/-- A host read of register `n` (R30). The block's state does not change ("Reads have no side effect"); only the model's count of
free draws does, where a register is unwritten. -/
def hostRead (n : Nat) (s : State) : Except Refusal (Word × State) :=
  match n with
  | 0 => .ok (0, s)
  | 1 => .ok (readStatus s)
  | 2 => .ok (s.err.code.zeroExtend 16, s)
  | 3 => .ok (readNarrow s.crc s)
  | 4 => .ok (s.sr.zeroExtend 16, s)
  | 5 => .ok (readNarrow s.res s)
  | 6 => .ok (readNarrow s.rx s)
  | 7 => .ok (readWordReg s.value s)
  | 8 => .ok (readNarrow s.rxcrc s)
  | 9 => .ok (BitVec.ofNat 16 s.pollcnt, s)
  | m + 10 => .error (.noSuchHostRegister (m + 10))

/-- The command word the host issues next, if its list is not at its end (R12, R215). -/
def nextCommand (s : State) : Option Word := s.program[s.index]?

/-- The index moves past a completed command, also one that faulted, but for a hardware fault, which ends the run in a state that is
not final (R12, R215). -/
def advance (s : State) : State := if s.halted then s else { s with index := s.index + 1 }

/-- The outcome of a command with the index moved. -/
def advanceOutcome : Host.Outcome State Fault Refusal → Host.Outcome State Fault Refusal
  | .next t => .next (advance t)
  | .fault r => .fault r
  | .refused r => .refused r

/-- One command of the host's list, from the write to `CMD` to its completion (R12, R70); without a command the block does nothing
(R210; DESIGN CHOICE, log entry 5). -/
def performNext (s : State) : Host.Outcome State Fault Refusal :=
  match nextCommand s with
  | some w => advanceOutcome (hostWrite 0 w s)
  | none => .next s

/-- A list of words with `w` at place `n`; places the list does not reach are filled with the reserved word 0. -/
def placeWord (w : Word) : Nat → List Word → List Word
  | 0, [] => [w]
  | 0, _ :: rest => w :: rest
  | n + 1, [] => 0 :: placeWord w n []
  | n + 1, v :: rest => v :: placeWord w n rest

end Sys2Proof.Machine
end

