-- ==== Sys2Proof/Machine/Step.lean ====
section
/-! DEFINITION. One step: the host issues its next command and the block performs the whole of it (spec 10_state.md R12, 30_encoding.md R70). -/
namespace Sys2Proof.Machine

open Sys2Proof

/-- One step of the machine. -/
def step (s : State) : Host.Outcome State Fault Refusal := performNext s

/-- `s` with the given word as the host's next command. -/
def State.withFetchWord (s : State) (nbits w : Nat) : State :=
  { s with program := placeWord (tableWord nbits w) s.index s.program }

end Sys2Proof.Machine
end

