-- ==== Sys2Proof/Machine/Assembler.lean ====
section
/-! DEFINITION. The assembler syntax of spec 30_encoding.md R77 with the pseudo-instructions of R79, on lists of characters. No command
depends on it; a host's program text becomes the command words of `State.program` by it. What R77 leaves open is a DESIGN CHOICE, log entry 12. -/
namespace Sys2Proof.Machine

open Sys2Proof

/-- The mnemonic of a command, in upper case (R72, R77). -/
def mnemonicText : Instr → List Char
  | .ckh => ['C', 'K', 'H']
  | .ckl => ['C', 'K', 'L']
  | .dlo => ['D', 'L', 'O']
  | .drl => ['D', 'R', 'L']
  | .dly => ['D', 'L', 'Y']
  | .tstart => ['T', 'S', 'T', 'A', 'R', 'T']
  | .creset => ['C', 'R', 'E', 'S', 'E', 'T']
  | .sendb _ => ['S', 'E', 'N', 'D', 'B']
  | .readb _ => ['R', 'E', 'A', 'D', 'B']
  | .mirr _ => ['M', 'I', 'R', 'R']
  | .seed => ['S', 'E', 'E', 'D']
  | .fold _ => ['F', 'O', 'L', 'D']
  | .check _ => ['C', 'H', 'E', 'C', 'K']
  | .meas _ => ['M', 'E', 'A', 'S']
  | .srst => ['S', 'R', 'S', 'T']
  | .openLines => ['O', 'P', 'E', 'N']
  | .closeLines => ['C', 'L', 'O', 'S', 'E']

/-- The operand of `READB` (R77). -/
def ackText (a : Bool) : List Char := if a then ['A', 'C', 'K'] else ['N', 'O', 'A', 'C', 'K']

/-- The hexadecimal digits, in upper case. -/
def hexDigits : List Char := ['0', '1', '2', '3', '4', '5', '6', '7', '8', '9', 'A', 'B', 'C', 'D', 'E', 'F']

/-- The value of a digit in either case; `none` for any other character. -/
def digitValue (c : Char) : Option Nat :=
  match hexDigits.findIdx? (· == c) with
  | some n => some n
  | none => (['a', 'b', 'c', 'd', 'e', 'f'].findIdx? (· == c)).map (· + 10)

/-- A number in a base, from its first digit on. -/
def digitsFrom (base : Nat) : Nat → List Char → Option Nat
  | n, [] => some n
  | n, c :: rest =>
    match digitValue c with
    | some d => if d < base then digitsFrom base (base * n + d) rest else none
    | none => none

/-- A number with at least one digit. -/
def parseNumber (base : Nat) : List Char → Option Nat
  | [] => none
  | c :: rest => digitsFrom base 0 (c :: rest)

/-- A byte operand: hexadecimal with `0x`, or decimal; 0 to 255 (R77). -/
def parseByte (text : List Char) : Option Byte :=
  let number := match text with
    | '0' :: 'x' :: digits => parseNumber 16 digits
    | other => parseNumber 10 other
  match number with
  | some n => if n < 256 then some (BitVec.ofNat 8 n) else none
  | none => none

/-- The words of a line, separated by blanks; `cur` holds the letters of the word being read, last first. -/
def splitWords : List Char → List Char → List (List Char)
  | [], cur => if cur.isEmpty then [] else [cur.reverse]
  | c :: rest, cur =>
    if c == ' ' || c == '\t' then (if cur.isEmpty then splitWords rest [] else cur.reverse :: splitWords rest [])
    else splitWords rest (c :: cur)

/-- A line without its comment, which a `;` starts (R77). -/
def withoutComment (line : List Char) : List Char := line.takeWhile (· != ';')

/-- The lines without an operand: the commands that take none, and the pseudo-instructions (R77, R79). -/
def plainLines : List (List Char × List Instr) :=
  [Instr.ckh, .ckl, .dlo, .drl, .dly, .tstart, .creset, .seed, .srst, .openLines, .closeLines].map (fun i => (mnemonicText i, [i])) ++
    [(['T', 'E', 'M', 'P'], pseudoTemp), (['H', 'U', 'M', 'I'], pseudoHumi),
      (['M', 'E', 'A', 'S', 'A', 'L', 'L'], pseudoMeasAll)]

/-- The commands with a byte operand, by mnemonic (R71). -/
def byteCommand (m : List Char) (b : Byte) : Option Instr :=
  [Instr.sendb b, .mirr b, .fold b, .check b, .meas b].find? (fun i => mnemonicText i == m)

/-- The commands one line of text stands for: none for a blank line, one, or those of a pseudo-instruction; `none` where the line has
none of the forms of R77. -/
def assembleLine (line : List Char) : Option (List Instr) :=
  match splitWords (withoutComment line) [] with
  | [] => some []
  | [m] => plainLines.lookup m
  | [m, operand] =>
    if m == mnemonicText (.readb true) then
      if operand == ackText true then some [.readb true]
      else if operand == ackText false then some [.readb false]
      else none
    else
      match parseByte operand with
      | some b => (byteCommand m b).map (fun i => [i])
      | none => none
  | _ => none

/-- The command words of a program text, line after line; `none` if a line is not of the syntax. -/
def assemble : List (List Char) → Option (List Word)
  | [] => some []
  | line :: rest =>
    match assembleLine line, assemble rest with
    | some is, some ws => some (is.map encode ++ ws)
    | _, _ => none

/-- A byte as `0x` and two hexadecimal digits. -/
def byteText (b : Byte) : List Char :=
  ['0', 'x', hexDigits.getD (b.toNat / 16) '0', hexDigits.getD (b.toNat % 16) '0']

/-- The operand of a command as text, after its blank. -/
def operandText : Instr → List Char
  | .sendb b | .mirr b | .fold b | .check b | .meas b => ' ' :: byteText b
  | .readb a => ' ' :: ackText a
  | .ckh | .ckl | .dlo | .drl | .dly | .tstart | .creset | .seed | .srst | .openLines | .closeLines => []

/-- A command as a line of text. -/
def printLine (i : Instr) : List Char := mnemonicText i ++ operandText i

end Sys2Proof.Machine
end

