-- ==== Sys2Proof/Machine/Gpio.lean ====
section
/-! DEFINITION. The calls to the GPIO collaborator behind the block's events (spec 40_sequencer_primitives.md R96, 60_exceptions.md R193). No
rule of the block depends on them. -/
namespace Sys2Proof.Machine

open Sys2Proof

/-- The direction of a pin. -/
inductive PinDirection where
  | input
  | output
  deriving DecidableEq, Repr

/-- The five calls of the collaborator's contract (R96, R193); levels are true for high. A pin configured as an input has no initial
level. -/
inductive GpioCall where
  | configurePin (id : Nat) (direction : PinDirection) (initialLevel : Option Bool)
  | setLevel (id : Nat) (level : Bool)
  | readLevel (id : Nat)
  | sleepMicroseconds (n : Nat)
  | sleepMilliseconds (n : Nat)
  deriving DecidableEq, Repr

/-- The call an event stands for, in the spec's reading R96 and, for the configuration of `OPEN`, R165. The spec names no call for the
release of a line by `CLOSE`, so that event has none (DEDUCED, log entry 15). -/
def gpioCall (p : Params) : Event → Option GpioCall
  | .ckHigh => some (.setLevel p.clockLine true)
  | .ckLow => some (.setLevel p.clockLine false)
  | .dtLow => some (.configurePin p.dataLine .output (some false))
  | .dtRel => some (.configurePin p.dataLine .input none)
  | .delay => some (.sleepMicroseconds p.tDelay)
  | .sleepMs n => some (.sleepMilliseconds n)
  | .sample _ => some (.readLevel p.dataLine)
  | .cfgOutLow line => some (.configurePin line .output (some false))
  | .relLine _ => none

end Sys2Proof.Machine
end

