-- ==== Sys2Proof/Machine/Timing.lean ====
section
/-! DEFINITION. The nominal durations of spec 70_reset_and_hazards.md R230 and R231: counts of the trace's delay and sleep events. No
rule of the block depends on them (log entry 7). -/
namespace Sys2Proof.Machine

open Sys2Proof

/-- The nominal microseconds one event asks of the platform: `T_DELAY` for a delay, `n` milliseconds for a sleep, nothing else is
counted (R230, R231). -/
def eventMicros (p : Params) : Event → Nat
  | .delay => p.tDelay
  | .sleepMs n => 1000 * n
  | _ => 0

/-- The nominal microseconds of a list of events (R231). -/
def nominalMicros (p : Params) (es : List Event) : Nat := (es.map (eventMicros p)).sum

end Sys2Proof.Machine
end

