-- ==== Sys2Proof/Safety.lean ====
section
/-! DEFINITION. The terms in which claims are made: the answers the device will give, the events each operation must append as the
spec prints them, and the states a run can be in. -/
namespace Sys2Proof.Machine

open Sys2Proof

/-! ### The device's answers (spec 20_memory.md R51) -/

/-- Answer number `k` (from 0) the device will give to the samples to come: the listed one, or a free bit past the list's end. -/
def oracle (s : State) (k : Nat) : Bool :=
  match s.device[k]? with
  | some v => v
  | none => Config.freeBit (s.draws + (k - s.device.length))

/-- The state when `n` answers have been used up; nothing else differs. -/
def consume (n : Nat) (s : State) : State :=
  { s with device := s.device.drop n, draws := s.draws + (n - s.device.length) }

/-- The byte the device presents in answers `k` to `k + 7`, the first of them bit 7 (spec 42_byte_transceiver.md R119). -/
def answerByte (s : State) (k : Nat) : Byte :=
  BitVec.ofBool (oracle s k) ++ BitVec.ofBool (oracle s (k + 1)) ++ BitVec.ofBool (oracle s (k + 2)) ++
    BitVec.ofBool (oracle s (k + 3)) ++ BitVec.ofBool (oracle s (k + 4)) ++ BitVec.ofBool (oracle s (k + 5)) ++
    BitVec.ofBool (oracle s (k + 6)) ++ BitVec.ofBool (oracle s (k + 7))

/-! ### The events of each operation, as the spec prints them -/

/-- The 12 events of R100. -/
def tstartEvents : List Event :=
  [.ckHigh, .delay, .dtLow, .delay, .ckLow, .delay, .ckHigh, .delay, .dtRel, .delay, .ckLow, .delay]

/-- The 38 events of R101. -/
def cresetEvents : List Event :=
  [.dtRel, .delay] ++ (List.replicate 9 [Event.ckHigh, .delay, .ckLow, .delay]).flatten

/-- The 8 events of a transmitted bit (R111). -/
def sendBitEvents (b : Bool) : List Event :=
  [.ckLow, .delay, if b then .dtRel else .dtLow, .delay, .ckHigh, .delay, .ckLow, .delay]

/-- The 71 events of a sent byte whose acknowledgment sample is `a` (R113). -/
def sendEvents (v : Byte) (a : Bool) : List Event :=
  sendBitEvents (v.getLsbD 7) ++ sendBitEvents (v.getLsbD 6) ++ sendBitEvents (v.getLsbD 5) ++ sendBitEvents (v.getLsbD 4) ++
    sendBitEvents (v.getLsbD 3) ++ sendBitEvents (v.getLsbD 2) ++ sendBitEvents (v.getLsbD 1) ++ sendBitEvents (v.getLsbD 0) ++
    [.dtRel, .delay, .ckHigh, .delay, .sample a, .ckLow, .delay]

/-- The 5 events of a received bit (R116). -/
def readBitEvents (b : Bool) : List Event := [.ckHigh, .delay, .sample b, .ckLow, .delay]

/-- The 8 events of the block's acknowledgment (R117). -/
def readAckEvents : List Event := [.dtLow, .delay, .ckHigh, .delay, .ckLow, .delay, .dtRel, .delay]

/-- The 40 or 48 events of a received byte `r` (R119). -/
def readEvents (a : Bool) (r : Byte) : List Event :=
  readBitEvents (r.getLsbD 7) ++ readBitEvents (r.getLsbD 6) ++ readBitEvents (r.getLsbD 5) ++ readBitEvents (r.getLsbD 4) ++
    readBitEvents (r.getLsbD 3) ++ readBitEvents (r.getLsbD 2) ++ readBitEvents (r.getLsbD 1) ++ readBitEvents (r.getLsbD 0) ++
    (if a then readAckEvents else [])

/-- The events of `n` polls that all read high (R153). -/
def silentPolls (ms n : Nat) : List Event := (List.replicate n [Event.sleepMs ms, .sample true]).flatten

/-- The events of a wait that ends at poll number `k`, the first that reads low (R153). -/
def readyPolls (ms k : Nat) : List Event := silentPolls ms (k - 1) ++ [.sleepMs ms, .sample false]

/-- The 122 events of a soft reset whose acknowledgment sample is `a` (R160). -/
def softResetEvents (a : Bool) : List Event := cresetEvents ++ tstartEvents ++ sendEvents 0x1E a ++ [.sleepMs 11]

/-- The 125 events of an effective `OPEN` (R165). -/
def openEvents (p : Params) (a : Bool) : List Event :=
  [.cfgOutLow p.clockLine, .cfgOutLow p.dataLine, .sleepMs 20] ++ softResetEvents a

/-- The 219 + 2k events of an exchange that is ready at poll `k` and receives `h`, `l` and `c` (R150, R169). -/
def measReadyEvents (p : Params) (cmd : Byte) (a : Bool) (k : Nat) (h l c : Byte) : List Event :=
  tstartEvents ++ sendEvents cmd a ++ readyPolls p.pollMs k ++ readEvents true h ++ readEvents true l ++ readEvents false c

/-- The 83 + 2 `MAX_POLLS` events of an exchange that times out (R156, R169). -/
def measTimeoutEvents (p : Params) (cmd : Byte) (a : Bool) : List Event :=
  tstartEvents ++ sendEvents cmd a ++ silentPolls p.pollMs p.maxPolls

/-! ### What a run can be in -/

/-- Every command but `OPEN` and `CLOSE` needs an open block (R181). -/
def needsOpen : Instr → Bool
  | .openLines => false
  | .closeLines => false
  | .ckh | .ckl | .dlo | .drl | .dly | .tstart | .creset | .srst | .seed => true
  | .sendb _ | .readb _ | .mirr _ | .fold _ | .check _ | .meas _ => true

/-- The block is able to run a command that needs an open block (R186): no hardware fault is recorded and the block is open. -/
abbrev Ready (s : State) : Prop := s.halted = false ∧ s.isOpen = true

/-- The block is closed and no hardware fault is recorded (R190). -/
abbrev Closed (s : State) : Prop := s.halted = false ∧ s.isOpen = false

/-- The device answers the polls of an exchange with 1 until poll `k`, which reads 0; answer 0 is the acknowledgment (R153). -/
abbrev ReadyAt (s : State) (k : Nat) : Prop :=
  1 ≤ k ∧ k ≤ s.params.maxPolls ∧ (∀ j < k, 1 ≤ j → oracle s j = true) ∧ oracle s k = false

/-- The device answers every poll the exchange may make with 1 (R156). -/
abbrev NeverReady (s : State) : Prop := ∀ j < s.params.maxPolls, oracle s (j + 1) = true

/-- Command `i` refuses a closed block: `ERR` is 1 and nothing else changes (R181, R187). -/
abbrev RefusesClosed (i : Instr) : Prop := ∀ s, Closed s → exec i s = .next { s with err := .notOpen }

/-- The command word with the bits of `base` and operand `imm` (R70). -/
def wordWith (base : Word) (imm : Byte) : Word := base ||| imm.zeroExtend 16

/-- Writing the word to `CMD` raises `IllegalCommand` and does nothing else (R74, R182). -/
abbrev RaisesIllegal (w : Word) : Prop :=
  ∀ s : State, s.halted = false → hostWrite 0 w s = .next { s with err := .illegalCommand }

/-- The encoding of a command without operand: `base`, and with any other `IMM8` the word raises `IllegalCommand` (R71, R74). -/
abbrev EncodedAlone (base : Word) (i : Instr) : Prop :=
  decode base = .command i ∧ ∀ imm : Byte, imm ≠ 0 → RaisesIllegal (wordWith base imm)

/-- Commands performed one after the other (R215). -/
def runAll : List Instr → State → Host.Outcome State Fault Refusal
  | [], s => .next s
  | i :: rest, s =>
    match exec i s with
    | .next t => runAll rest t
    | .fault r => .fault r
    | .refused r => .refused r

/-- Whether an event is a read of the data line (R8). -/
def isSample : Event → Bool
  | .sample _ => true
  | _ => false

/-- `t` follows `s` by appending `n` events, `pulses` of them `CkHigh` and `samples` of them `Sample` (R169). -/
def Appends (s t : State) (n pulses samples : Nat) : Prop :=
  ∃ es, t.trace = s.trace ++ es ∧ es.length = n ∧ es.count .ckHigh = pulses ∧ es.countP isSample = samples

/-- `t` follows `s` by appending events whose nominal durations add up to `micros` microseconds (R230, R231). -/
def Takes (s t : State) (micros : Nat) : Prop := ∃ es, t.trace = s.trace ++ es ∧ nominalMicros s.params es = micros

/-- What holds of the block between two commands in every run from reset: the spec's own statements about reachable states. -/
structure RunInv (s : State) : Prop where
  /-- "in every reachable state `SR == 0x00`" (R14). -/
  srZero : s.sr = 0
  /-- `HardwareFault` is never raised, so `HALTED` stays 0 (R29). -/
  notHalted : s.halted = false
  /-- Code 3 is never recorded (R183). -/
  noHardwareFault : s.err ≠ .hardwareFault
  /-- The lines are not configured while the block is closed (R16, R17). -/
  closedLinesOff : s.isOpen = false → s.ck = .off ∧ s.dt = .off
  /-- "`DT` is Off only while `OPEN == 0`" (R50), and `CK` likewise (R16). -/
  openLinesDriven : s.isOpen = true → s.ck ≠ .off ∧ s.dt ≠ .off
  /-- A closed block holds no result (R32, R167). -/
  closedForgets : s.isOpen = false → s.crc = none ∧ s.ack = none ∧ s.rx = none ∧ s.res = none ∧ s.value = none ∧
    s.rxcrc = none ∧ s.succ = none ∧ s.tout = none ∧ s.matched = none
  /-- A closed block is idle (R32, R167). -/
  closedIdle : s.isOpen = false → s.xstate = .idle
  /-- Between commands the exchange state is Idle or terminal (R26). -/
  atRest : s.xstate = .idle ∨ s.xstate = .verified ∨ s.xstate = .failed ∨ s.xstate = .timedOut
  /-- "(`SUCC`=1, `TOUT`=1) is never written" (R23). -/
  outcomeLegal : ¬ (s.succ = some true ∧ s.tout = some true)
  /-- Verified: the flags of a success, after 1 to `MAX_POLLS` polls (R23, R153, R155). -/
  verifiedOutcome : s.xstate = .verified → s.succ = some true ∧ s.tout = some false ∧ 1 ≤ s.pollcnt
  /-- Failed: the flags of a checksum mismatch (R23, R153, R155). -/
  failedOutcome : s.xstate = .failed → s.succ = some false ∧ s.tout = some false ∧ 1 ≤ s.pollcnt
  /-- TimedOut: the flags, the value and the count of a timeout (R156). -/
  timedOutOutcome : s.xstate = .timedOut → s.succ = some false ∧ s.tout = some true ∧ s.value = some 0 ∧
    s.pollcnt = s.params.maxPolls
  /-- `POLLCNT` "never exceeds `MAX_POLLS`" (R140). -/
  pollsBounded : s.pollcnt ≤ s.params.maxPolls
  /-- The index is one of 0 to the list's length (R12). -/
  indexInProgram : s.index ≤ s.program.length

end Sys2Proof.Machine
end

