-- ==== Sys2Proof/Certificates/Slice0/Obligations.lean ====
section
/-! DEFINITION. The statements for the provers. Each says which rule of the spec it formalises; an equation with a record
`{ s with … }` gives the result and the frame at once: every field it does not name is unchanged. -/

open Sys2Proof Sys2Proof.Machine

/-! ### The step and the faults -/

/-- When the host's next word decodes to `i`, a step is `exec i` with the index moved past it (R12, R70); a command after which a
hardware fault stands recorded leaves the index where it is (R12). -/
def Obligations.StepRunsDecodedCommand : Prop :=
  ∀ (s : State) (w : Word) (i : Instr), s.program[s.index]? = some w → s.halted = false → decode w = .command i →
    step s = match exec i s with
      | .next t => .next (if t.halted then t else { t with index := t.index + 1 })
      | .fault r => .fault r
      | .refused r => .refused r

/-- A word that fails a check of R74 raises `IllegalCommand` and does nothing else, open or closed (R182, R186). -/
def Obligations.ReservedWordRaisesIllegalCommand : Prop :=
  ∀ (s : State) (w : Word), s.program[s.index]? = some w → s.halted = false → (fieldsOf w).wellFormed = false →
    step s = .next { s with err := .illegalCommand, index := s.index + 1 }

/-- Without an `OPEN` before it, every command but `OPEN` and `CLOSE` raises `NotOpen` and does nothing else; those two never raise it
(R181). -/
def Obligations.ClosedBlockRaisesNotOpen : Prop :=
  (∀ (i : Instr) (s : State), i ≠ .openLines → i ≠ .closeLines → s.halted = false → s.isOpen = false →
    exec i s = .next { s with err := .notOpen }) ∧
    ∀ s : State, s.halted = false → ∃ t u, exec .openLines s = .next t ∧ t.err = .noFault ∧
      exec .closeLines s = .next u ∧ u.err = .noFault

/-- The checks before a command, in their order (R186): which code a word written to `CMD` records; and a word that records a fault
changes nothing but `ERR`. -/
def Obligations.FaultPriority : Prop :=
  ∀ (w : Word) (s : State), ∃ t, hostWrite 0 w s = .next t ∧
    t.err = (if s.halted then .hardwareFault
      else match decode w with
        | .illegal _ => .illegalCommand
        | .command i => if needsOpen i && !s.isOpen then .notOpen else .noFault) ∧
    (t.err ≠ .noFault → t = { s with err := t.err })

/-- While `HALTED` is set every command, `OPEN` and `CLOSE` included, and every word records code 3 and has no other effect; the run
does not go on (R12, R29, R183, R186). That the step is a next state with the index unmoved is the model's reading (log entry 4). -/
def Obligations.HaltedBlockRefusesEverything : Prop :=
  ∀ s : State, s.halted = true →
    (∀ i, exec i s = .next { s with err := .hardwareFault }) ∧
      ∀ w, s.program[s.index]? = some w → step s = .next { s with err := .hardwareFault }

/-- Without a command from the host the block does nothing (R210), right after reset for one. The step that changes nothing is the model's
choice (log entry 5). -/
def Obligations.IdleWithoutCommand : Prop :=
  (∀ s : State, s.program[s.index]? = none → step s = .next s) ∧ ∀ p, step (State.powerOn p) = .next (State.powerOn p)

/-- The block always has a next step, whatever the device answers (R51, R187): no command, word or state stops it. Two of these steps are
the model's choice, since R12 and R215 say that the run has ended there: the idle step without a command (log entry 5) and the step of
a halted block, which records code 3 and stays (log entry 4). -/
def Obligations.EveryStepHasANext : Prop := ∀ s : State, ∃ t, step s = .next t

/-! ### The primitives and the sequences -/

/-- `CKH` (R90): the clock goes high, one event; the encoding; the two faults. -/
def Obligations.ClockHighCommand : Prop :=
  EncodedAlone 0x1000 .ckh ∧ RefusesClosed .ckh ∧
    ∀ s, Ready s → exec .ckh s = .next { s with err := .noFault, ck := .high, trace := s.trace ++ [.ckHigh] }

/-- `CKL` (R91): the clock goes low, one event, also where it is low already. -/
def Obligations.ClockLowCommand : Prop :=
  EncodedAlone 0x1100 .ckl ∧ RefusesClosed .ckl ∧
    ∀ s, Ready s → exec .ckl s = .next { s with err := .noFault, ck := .low, trace := s.trace ++ [.ckLow] }

/-- `DLO` (R92): the data line is driven low, one event; from then on a sample reads 0 whatever the device does. -/
def Obligations.DataAssertLowCommand : Prop :=
  EncodedAlone 0x1200 .dlo ∧ RefusesClosed .dlo ∧
    ∀ s, Ready s → exec .dlo s = .next { s with err := .noFault, dt := .low, trace := s.trace ++ [.dtLow] } ∧
      ∀ t, exec .dlo s = .next t → (sample t).1 = false

/-- `DRL` (R93): the data line is released, one event; from then on a sample reads what the device answers. -/
def Obligations.DataReleaseCommand : Prop :=
  EncodedAlone 0x1300 .drl ∧ RefusesClosed .drl ∧
    ∀ s, Ready s → exec .drl s = .next { s with err := .noFault, dt := .rel, trace := s.trace ++ [.dtRel] } ∧
      ∀ t, exec .drl s = .next t → (sample t).1 = oracle s 0

/-- `DLY` (R94): nothing but one event. -/
def Obligations.DelayCommand : Prop :=
  EncodedAlone 0x1400 .dly ∧ RefusesClosed .dly ∧
    ∀ s, Ready s → exec .dly s = .next { s with err := .noFault, trace := s.trace ++ [.delay] }

/-- `Sample()` (R95): 0 while the block drives the line low, and the device is not asked; else the device's answer. It appends its
event and writes no register. -/
def Obligations.SampleResolvesTheDataLine : Prop :=
  ∀ s : State,
    (s.dt = .low → sample s = (false, { s with trace := s.trace ++ [.sample false] })) ∧
      (s.dt ≠ .low → sample s = (oracle s 0, { consume 1 s with trace := s.trace ++ [.sample (oracle s 0)] }))

/-- `TSTART` (R100): the twelve events in order, clock low and data released after them, from any line state; nothing sampled. -/
def Obligations.TransmissionStartCommand : Prop :=
  EncodedAlone 0x2000 .tstart ∧ RefusesClosed .tstart ∧
    ∀ s, Ready s → exec .tstart s = .next { s with
      err := .noFault
      ck := .low
      dt := .rel
      trace := s.trace ++ [.ckHigh, .delay, .dtLow, .delay, .ckLow, .delay, .ckHigh, .delay, .dtRel, .delay, .ckLow, .delay] }

/-- `CRESET` (R101): release and exactly nine pulses, 38 events; clock low and data released after them. -/
def Obligations.ResetSequenceCommand : Prop :=
  EncodedAlone 0x2100 .creset ∧ RefusesClosed .creset ∧ cresetEvents.length = 38 ∧ cresetEvents.count .ckHigh = 9 ∧
    ∀ s, Ready s → exec .creset s = .next { s with
      err := .noFault
      ck := .low
      dt := .rel
      trace := s.trace ++ cresetEvents }

/-- A sequence is its primitives in order (R102): the twelve, and the 38, single commands reach the state of `TSTART` and `CRESET`. -/
def Obligations.SequencesAreTheirPrimitives : Prop :=
  ∀ s, Ready s →
    runAll [.ckh, .dly, .dlo, .dly, .ckl, .dly, .ckh, .dly, .drl, .dly, .ckl, .dly] s = exec .tstart s ∧
      runAll ([.drl, .dly] ++ (List.replicate 9 [Instr.ckh, .dly, .ckl, .dly]).flatten) s = exec .creset s

/-! ### The byte transceiver -/

/-- `SENDB v` (R110 to R113): the 71 events with their nine pulses, bit 7 first; `ACK` is the negated acknowledgment sample; clock low
and data released after it, from any line state; `CRC` untouched. -/
def Obligations.SendByteCommand : Prop :=
  (∀ v : Byte, decode (wordWith 0x3000 v) = .command (.sendb v)) ∧ (∀ v, RefusesClosed (.sendb v)) ∧
    (∀ v a, (sendEvents v a).length = 71 ∧ (sendEvents v a).count .ckHigh = 9 ∧ (sendEvents v a).count .ckLow = 17 ∧
      (sendEvents v a).count .dtLow + (sendEvents v a).count .dtRel = 9 ∧ (sendEvents v a).count .delay = 35 ∧
      (sendEvents v a).countP isSample = 1) ∧
    ∀ v s, Ready s → exec (.sendb v) s = .next { consume 1 s with
      err := .noFault
      ck := .low
      dt := .rel
      ack := some (!oracle s 0)
      trace := s.trace ++ sendEvents v (oracle s 0) }

/-- `READB a` (R115 to R117, R119, R222): on a line the block does not hold low the byte of the device's next eight answers, bit 7
first; on a line it holds low the byte 0 and no answer used; 40 events, or 48 with the acknowledgment, after which the line is
released; without it the data line stays as it was. -/
def Obligations.ReadByteCommand : Prop :=
  (decode 0x3100 = .command (.readb false) ∧ decode 0x3101 = .command (.readb true) ∧
      ∀ imm : Byte, imm ≠ 0 → imm ≠ 1 → RaisesIllegal (wordWith 0x3100 imm)) ∧
    (∀ a, RefusesClosed (.readb a)) ∧
    (∀ a r, (readEvents a r).length = (if a then 48 else 40) ∧ (readEvents a r).count .ckHigh = (if a then 9 else 8) ∧
      (readEvents a r).count .ckLow = (if a then 9 else 8) ∧ (readEvents a r).count .delay = (if a then 20 else 16) ∧
      (readEvents a r).countP isSample = 8 ∧ (readEvents a r).count .dtLow = (if a then 1 else 0) ∧
      (readEvents a r).count .dtRel = (if a then 1 else 0)) ∧
    ∀ a s, Ready s →
      (s.dt ≠ .low → exec (.readb a) s = .next { consume 8 s with
        err := .noFault
        ck := .low
        dt := if a then .rel else s.dt
        rx := some (answerByte s 0)
        trace := s.trace ++ readEvents a (answerByte s 0) }) ∧
      (s.dt = .low → exec (.readb a) s = .next { s with
        err := .noFault
        ck := .low
        dt := if a then .rel else .low
        rx := some 0
        trace := s.trace ++ readEvents a 0 })

/-! ### The checksum engine -/

/-- `mirror` (R130, R142): bit `i` is bit `7 - i`; an involution and a bijection; it distributes over the bitwise operations, turns a
left shift into a right shift, and does not commute with `fold`. -/
def Obligations.MirrorReversesBits : Prop :=
  (∀ (b : Byte) (i : Nat), i < 8 → (mirror b).getLsbD i = b.getLsbD (7 - i)) ∧
    (∀ x : Byte, mirror (mirror x) = x) ∧ Function.Bijective mirror ∧
    (∀ x y : Byte, mirror (x ^^^ y) = mirror x ^^^ mirror y ∧ mirror (x &&& y) = mirror x &&& mirror y ∧
      mirror (x ||| y) = mirror x ||| mirror y) ∧
    (∀ x : Byte, mirror ((x <<< 1) &&& 0xFF) = mirror x >>> 1) ∧
    ∃ a b : Byte, mirror (crcFold a b) ≠ crcFold (mirror a) (mirror b)

/-- `fold` (R131): eight rounds of the rule's update, which uses `a` and `b` from before it. -/
def Obligations.FoldIsEightBitUpdates : Prop :=
  ∀ a b : Byte, crcFold a b = (Nat.iterate
    (fun p : Byte × Byte =>
      (if (p.1 ^^^ p.2).getLsbD 7 then ((p.1 <<< 1) &&& 0xFF) ^^^ 0x31 else (p.1 <<< 1) &&& 0xFF, (p.2 <<< 1) &&& 0xFF))
    8 (a, b)).1

/-- The laws of `fold` (R141): exclusive-or-first form, linearity, bijectivity in both arguments, `fold(a, a) = 0`, and the two check
values of the string "123456789". -/
def Obligations.FoldLaws : Prop :=
  (∀ a b : Byte, crcFold a b = crcFold 0 (a ^^^ b) ∧ crcFold a b = crcFold (a ^^^ b) 0) ∧
    (∀ x y : Byte, crcFold 0 (x ^^^ y) = crcFold 0 x ^^^ crcFold 0 y ∧ crcFold x y = crcFold 0 x ^^^ crcFold 0 y) ∧
    (∀ a : Byte, Function.Bijective (crcFold a)) ∧ (∀ b : Byte, Function.Bijective fun a : Byte => crcFold a b) ∧
    (∀ a : Byte, crcFold a a = 0) ∧
    [0x31, 0x32, 0x33, 0x34, 0x35, 0x36, 0x37, 0x38, 0x39].foldl crcFold 0xFF = 0xF7 ∧
    [0x31, 0x32, 0x33, 0x34, 0x35, 0x36, 0x37, 0x38, 0x39].foldl crcFold 0x00 = 0xA2

/-- `MIRR b` (R132): `RES` becomes the mirrored operand, no event; the sixteen bytes that are their own mirror. -/
def Obligations.MirrorCommand : Prop :=
  (∀ b : Byte, decode (wordWith 0x4000 b) = .command (.mirr b)) ∧ (∀ b, RefusesClosed (.mirr b)) ∧
    (∀ b : Byte, mirror b = b ↔ b ∈ ([0x00, 0x18, 0x24, 0x3C, 0x42, 0x5A, 0x66, 0x7E] ++
      [0x81, 0x99, 0xA5, 0xBD, 0xC3, 0xDB, 0xE7, 0xFF] : List Byte)) ∧
    ∀ b s, Ready s → exec (.mirr b) s = .next { s with err := .noFault, res := some (mirror b) }

/-- `SEED` (R133, R135): `CRC` becomes `mirror(SR & 0x0F)`, which is 0 with the only reachable `SR`; no event. -/
def Obligations.SeedCommand : Prop :=
  EncodedAlone 0x4100 .seed ∧ RefusesClosed .seed ∧
    ∀ s, Ready s → exec .seed s = .next { s with err := .noFault, crc := some (mirror (s.sr &&& 0x0F)) } ∧
      (s.sr = 0 → mirror (s.sr &&& 0x0F) = 0)

/-- `FOLD b` (R136): `CRC` is folded with the operand, no event; an unwritten `CRC` reads as any value, so the result is the fold of a
free byte and nothing else is lost; folding 0 is not the identity, folding a value into itself gives 0. -/
def Obligations.FoldCommand : Prop :=
  (∀ b : Byte, decode (wordWith 0x4200 b) = .command (.fold b)) ∧ (∀ b, RefusesClosed (.fold b)) ∧
    (∀ a : Byte, crcFold a a = 0 ∧ crcFold a 0 = crcFold 0 a) ∧ crcFold 0x01 0x00 = 0x31 ∧
    ∀ b s, Ready s →
      (∀ v, s.crc = some v → exec (.fold b) s = .next { s with err := .noFault, crc := some (crcFold v b) }) ∧
      (s.crc = none → exec (.fold b) s = .next { s with
        err := .noFault
        crc := some (crcFold (Config.freeByte s.draws) b)
        draws := s.draws + 1 })

/-- `CHECK b` (R137): `MATCH` is whether the mirrored `CRC` equals the operand, `CRC` itself untouched, no event; exactly one operand
matches a given `CRC`; an unwritten `CRC` gives any result. -/
def Obligations.CheckCommand : Prop :=
  (∀ b : Byte, decode (wordWith 0x4300 b) = .command (.check b)) ∧ (∀ b, RefusesClosed (.check b)) ∧
    ∀ b s, Ready s →
      (∀ v, s.crc = some v → exec (.check b) s = .next { s with err := .noFault, matched := some (decide (b = mirror v)) }) ∧
      (s.crc = none → exec (.check b) s = .next { s with
        err := .noFault
        matched := some (decide (b = mirror (Config.freeByte s.draws)))
        draws := s.draws + 1 })

/-! ### The exchange controller -/

/-- `MEAS c` when the device is ready at poll `k` (R150 to R155, R158): seed, three folds, comparison, the value in both outcomes, the
full trace; the acknowledgment, answer 0, is recorded and steers nothing. -/
def Obligations.MeasureReadyExchange : Prop :=
  ∀ (c : Byte) (s : State) (k : Nat), Ready s → ReadyAt s k →
    let h := answerByte s (k + 1)
    let l := answerByte s (k + 9)
    let r := answerByte s (k + 17)
    let crc := crcFold (crcFold (crcFold (mirror (s.sr &&& 0x0F)) c) h) l
    let m := decide (mirror crc = r)
    exec (.meas c) s = .next { consume (k + 25) s with
      err := .noFault
      ck := .low
      dt := .rel
      ack := some (!oracle s 0)
      crc := some crc
      rx := some r
      rxcrc := some r
      matched := some m
      succ := some m
      tout := some false
      value := some (h ++ l)
      xstate := if m then .verified else .failed
      pollcnt := k
      trace := s.trace ++ measReadyEvents s.params c (oracle s 0) k h l r }

/-- `MEAS c` when the device never signals ready (R156): the timeout outcome after exactly `MAX_POLLS` polls, no byte read, `RX`,
`RXCRC` and `MATCH` kept. With `MAX_POLLS` 0 no poll is made. -/
def Obligations.MeasureTimeout : Prop :=
  ∀ (c : Byte) (s : State), Ready s → NeverReady s →
    exec (.meas c) s = .next { consume (s.params.maxPolls + 1) s with
      err := .noFault
      ck := .low
      dt := .rel
      ack := some (!oracle s 0)
      crc := some (crcFold (mirror (s.sr &&& 0x0F)) c)
      succ := some false
      tout := some true
      value := some 0
      xstate := .timedOut
      pollcnt := s.params.maxPolls
      trace := s.trace ++ measTimeoutEvents s.params c (oracle s 0) }

/-- `MEAS` accepts every operand byte and refuses a closed block (R74, R150). -/
def Obligations.MeasureTakesEveryByte : Prop :=
  (∀ c : Byte, decode (wordWith 0x5000 c) = .command (.meas c)) ∧ ∀ c, RefusesClosed (.meas c)

/-- Whatever the device answers, `MEAS` ends without a fault in one of the three outcomes, after at most `MAX_POLLS` polls (R23, R153,
R157, R184); `SUCC` and `TOUT` are never both 1. -/
def Obligations.MeasureHasThreeOutcomes : Prop :=
  ∀ (c : Byte) (s : State), Ready s → ∃ t, exec (.meas c) s = .next t ∧ t.err = .noFault ∧ t.pollcnt ≤ s.params.maxPolls ∧
    ((t.succ = some true ∧ t.tout = some false ∧ t.matched = some true ∧ t.xstate = .verified ∧ 1 ≤ t.pollcnt) ∨
      (t.succ = some false ∧ t.tout = some false ∧ t.matched = some false ∧ t.xstate = .failed ∧ 1 ≤ t.pollcnt) ∨
      (t.succ = some false ∧ t.tout = some true ∧ t.matched = s.matched ∧ t.xstate = .timedOut ∧
        t.pollcnt = s.params.maxPolls))

/-- The phases of an exchange (R157) on the parts `MEAS` is made of: it is accepted into `Started` before the first primitive, keeps that
through the start sequence and the send, awaits the device once the command byte has been folded, and goes on to `TimedOut` or, when a
poll has read low, over `ReadingData`, kept by every read, to `Verified` or `Failed`. The middle states stand only inside a step, so
they are stated of the parts and not of a step (log entry 8). -/
def Obligations.ExchangeStatePhases : Prop :=
  ∀ (c : Byte) (s : State), Ready s →
    let begun := measBegin (accept s)
    let sent := sendByte c (seedCrc (performAll tstartPrims begun))
    let awaiting := measCommand c begun
    let waited := waitReady s.params.maxPolls awaiting
    let reading := measEnterRead waited.2
    exec (.meas c) s = .next (if waited.1 then measTransfer reading else measTimeout waited.2) ∧
      begun = { s with err := .noFault, pollcnt := 0, xstate := .started } ∧
      (performAll tstartPrims begun).xstate = .started ∧ sent.xstate = .started ∧
      sent.trace = s.trace ++ (tstartEvents ++ sendEvents c (oracle s 0)) ∧
      awaiting = { foldCrc c sent with xstate := .awaitingReady } ∧
      (waited.1 = true ↔ ∃ k, ReadyAt s k) ∧ waited.2.xstate = .awaitingReady ∧
      reading = { waited.2 with xstate := .readingData } ∧
      (readByte true reading).2.xstate = .readingData ∧
      (readByte true (readByte true reading).2).2.xstate = .readingData ∧
      (readByte false (readByte true (readByte true reading).2).2).2.xstate = .readingData ∧
      ((measTransfer reading).xstate = .verified ∨ (measTransfer reading).xstate = .failed) ∧
      (measTimeout waited.2).xstate = .timedOut

/-- No leak between exchanges (R139, R151): `MEAS` gives the same state whatever `CRC` held before, unwritten included. -/
def Obligations.MeasureForgetsOldChecksum : Prop :=
  ∀ (c : Byte) (s : State) (old : Option Byte), Ready s → exec (.meas c) { s with crc := old } = exec (.meas c) s

/-- Temperature then humidity (R168): both exchanges of `MEASALL` are performed, in that order, whatever the outcome of the first; the
second gives the same state whatever `CRC` the first left. -/
def Obligations.MeasureAllRunsBoth : Prop :=
  ∀ s : State, Ready s → ∃ t u, exec (.meas 0x03) s = .next t ∧ Ready t ∧ exec (.meas 0x05) t = .next u ∧
    runAll pseudoMeasAll s = .next u ∧ ∀ old, exec (.meas 0x05) { t with crc := old } = .next u

/-- The acknowledgment of the command byte does not steer the exchange (R158): two devices that differ in that answer alone leave
states that differ in `ACK` and the trace alone. -/
def Obligations.AcknowledgmentDoesNotSteer : Prop :=
  ∀ (c : Byte) (s : State) (rest : List Bool), Ready s → ∃ t u,
    exec (.meas c) { s with device := false :: rest } = .next t ∧ exec (.meas c) { s with device := true :: rest } = .next u ∧
      t.ack = some true ∧ u.ack = some false ∧ u = { t with ack := u.ack, trace := u.trace }

/-- A data line stuck at one level through all 24 data bits is never taken for a good reading, for either command byte of the document
and the reachable `SR` (95_test_vectors.md V7). -/
def Obligations.StuckLineNeverVerifies : Prop :=
  ∀ (c : Byte) (s : State) (k : Nat) (level : Bool), (c = 0x03 ∨ c = 0x05) → s.sr = 0 → Ready s → ReadyAt s k →
    (∀ j < 24, oracle s (k + 1 + j) = level) →
    ∃ t, exec (.meas c) s = .next t ∧ t.succ = some false ∧ t.tout = some false ∧ t.xstate = .failed ∧
      t.value = some (if level then 0xFFFF else 0x0000)

/-- `SRST` (R160): the 122 events in order, `ACK` rewritten, back to idle; every other register as before. -/
def Obligations.SoftResetCommand : Prop :=
  EncodedAlone 0x5100 .srst ∧ RefusesClosed .srst ∧
    ∀ s, Ready s → exec .srst s = .next { consume 1 s with
      err := .noFault
      ck := .low
      dt := .rel
      ack := some (!oracle s 0)
      xstate := .idle
      trace := s.trace ++ (cresetEvents ++ tstartEvents ++ sendEvents 0x1E (oracle s 0) ++ [.sleepMs 11]) }

/-- `OPEN` (R165): on a closed block the configuration of both lines, the power-up wait and the soft reset, 125 events; on an open
block nothing but `ERR`; never `NotOpen`. -/
def Obligations.OpenCommand : Prop :=
  EncodedAlone 0x5200 .openLines ∧
    (∀ s, Ready s → exec .openLines s = .next { s with err := .noFault }) ∧
    ∀ s, Closed s → exec .openLines s = .next { consume 1 s with
      err := .noFault
      isOpen := true
      ck := .low
      dt := .rel
      ack := some (!oracle s 0)
      xstate := .idle
      trace := s.trace ++ ([.cfgOutLow s.params.clockLine, .cfgOutLow s.params.dataLine, .sleepMs 20] ++
        (cresetEvents ++ tstartEvents ++ sendEvents 0x1E (oracle s 0) ++ [.sleepMs 11])) }

/-- `CLOSE` (R167): on an open block both lines released, clock first, and the results lose their values; on a closed block nothing
but `ERR`; never `NotOpen`. -/
def Obligations.CloseCommand : Prop :=
  EncodedAlone 0x5300 .closeLines ∧
    (∀ s, Closed s → exec .closeLines s = .next { s with err := .noFault }) ∧
    ∀ s, Ready s → exec .closeLines s = .next { s with
      err := .noFault
      isOpen := false
      ck := .off
      dt := .off
      xstate := .idle
      crc := none
      ack := none
      rx := none
      res := none
      value := none
      rxcrc := none
      succ := none
      tout := none
      matched := none
      trace := s.trace ++ [.relLine s.params.clockLine, .relLine s.params.dataLine] }

/-- What an effective `CLOSE` establishes (R213): from a state a run can be in, the hardware-reset state but for `POLLCNT` and the trace
(and the model's own fields). -/
def Obligations.CloseReturnsToReset : Prop :=
  ∀ s, RunInv s → s.isOpen = true → ∃ t, exec .closeLines s = .next t ∧
    t = { State.powerOn s.params with
      pollcnt := s.pollcnt
      trace := t.trace
      program := s.program
      index := s.index
      device := s.device
      draws := s.draws }

/-- The event counts of the composite commands (R169): events, `CkHigh`, `Sample`. -/
def Obligations.CompositeEventCounts : Prop :=
  (∀ c s k, Ready s → ReadyAt s k → ∃ t, exec (.meas c) s = .next t ∧ Appends s t (219 + 2 * k) 37 (1 + k + 24)) ∧
    (∀ c s, Ready s → NeverReady s → ∃ t, exec (.meas c) s = .next t ∧
      Appends s t (83 + 2 * s.params.maxPolls) 11 (1 + s.params.maxPolls)) ∧
    (∀ s, Ready s → ∃ t, exec .srst s = .next t ∧ Appends s t 122 20 1) ∧
    (∀ s, Closed s → ∃ t, exec .openLines s = .next t ∧ Appends s t 125 20 1) ∧
    (∀ s, Ready s → ∃ t, exec .openLines s = .next t ∧ Appends s t 0 0 0) ∧
    (∀ s, Ready s → ∃ t, exec .closeLines s = .next t ∧ Appends s t 2 0 0) ∧
    (∀ s, Closed s → ∃ t, exec .closeLines s = .next t ∧ Appends s t 0 0 0)

/-- The nominal durations of the commands (R231), in microseconds, from the events each appends. -/
def Obligations.NominalDurations : Prop :=
  (∀ s, Ready s → ∃ t, exec .tstart s = .next t ∧ Takes s t (6 * s.params.tDelay)) ∧
    (∀ s, Ready s → ∃ t, exec .creset s = .next t ∧ Takes s t (19 * s.params.tDelay)) ∧
    (∀ v s, Ready s → ∃ t, exec (.sendb v) s = .next t ∧ Takes s t (35 * s.params.tDelay)) ∧
    (∀ s, Ready s → ∃ t, exec (.readb false) s = .next t ∧ Takes s t (16 * s.params.tDelay)) ∧
    (∀ s, Ready s → ∃ t, exec (.readb true) s = .next t ∧ Takes s t (20 * s.params.tDelay)) ∧
    (∀ s, Ready s → ∃ t, exec .srst s = .next t ∧ Takes s t (60 * s.params.tDelay + 11000)) ∧
    (∀ s, Closed s → ∃ t, exec .openLines s = .next t ∧ Takes s t (60 * s.params.tDelay + 31000)) ∧
    (∀ c s k, Ready s → ReadyAt s k → ∃ t, exec (.meas c) s = .next t ∧
      Takes s t (97 * s.params.tDelay + 1000 * s.params.pollMs * k)) ∧
    (∀ c s, Ready s → NeverReady s → ∃ t, exec (.meas c) s = .next t ∧
      Takes s t (41 * s.params.tDelay + 1000 * s.params.pollMs * s.params.maxPolls))

/-! ### Whole-machine rules -/

/-- The state after reset (R32, R5): every entry of the rule's table, for every choice of the parameters; an effective `CLOSE` returns the
result registers to unwritten. `MAX_POLLS` 160 and `POLL_MS` 5 are the values R5 gives; that `State.reset` takes them, and the numbers of
its two lines, is the model's choice (DESIGN CHOICE, log entry 1) and no rule's. What a step does there is left to `IdleWithoutCommand`. -/
def Obligations.ResetState : Prop :=
  State.reset = State.powerOn Params.default ∧ Params.default.maxPolls = 160 ∧ Params.default.pollMs = 5 ∧
    ∀ p, let s := State.powerOn p
      s.isOpen = false ∧ s.sr = 0x00 ∧ s.crc = none ∧ s.ck = .off ∧ s.dt = .off ∧ s.ack = none ∧ s.rx = none ∧ s.res = none ∧
        s.value = none ∧ s.rxcrc = none ∧ s.succ = none ∧ s.tout = none ∧ s.matched = none ∧ s.err = .noFault ∧
        s.xstate = .idle ∧ s.pollcnt = 0 ∧ s.halted = false ∧ s.trace = [] ∧
        ∀ u, Ready u → ∃ t, exec .closeLines u = .next t ∧ t.crc = s.crc ∧ t.ack = s.ack ∧ t.rx = s.rx ∧ t.res = s.res ∧
          t.value = s.value ∧ t.rxcrc = s.rxcrc ∧ t.succ = s.succ ∧ t.tout = s.tout ∧ t.matched = s.matched

/-- The invariant holds after reset, for every choice of the parameters. -/
def Obligations.ResetMeetsInvariant : Prop := RunInv State.reset ∧ ∀ p, RunInv (State.powerOn p)

/-- Every step keeps the invariant: `SR` is 0, no hardware fault stands, the lines are configured exactly while the block is open, a
closed block holds no result, the exchange state is at rest and agrees with the outcome flags, the polls stay within their
bound (R14, R16, R17, R23, R26, R29, R32, R50, R140, R156). -/
def Obligations.StepKeepsInvariant : Prop := ∀ s t, RunInv s → step s = .next t → RunInv t

/-- No step changes `SR` (R14), the parameters (R33) or the host's list of commands (R33). -/
def Obligations.StepKeepsConfiguration : Prop :=
  ∀ s t, step s = .next t → t.sr = s.sr ∧ t.params = s.params ∧ t.program = s.program

/-- The trace is never cleared or rewritten (R28, R46): a step only appends to it, and only uses up answers of the device from the
front. -/
def Obligations.StepOnlyAppendsToTrace : Prop :=
  ∀ s t, step s = .next t → (∃ es, t.trace = s.trace ++ es) ∧ ∃ n, t.device = s.device.drop n

/-- Which commands write each result register (R15, R18 to R23, R27): all others leave it as it was. -/
def Obligations.ResultRegistersHaveTheirWriters : Prop :=
  ∀ (i : Instr) (s t : State), exec i s = .next t →
    (t.res ≠ s.res → i = .closeLines ∨ ∃ b, i = .mirr b) ∧
    (t.rx ≠ s.rx → i = .closeLines ∨ (∃ a, i = .readb a) ∨ ∃ c, i = .meas c) ∧
    (t.crc ≠ s.crc → i = .closeLines ∨ i = .seed ∨ (∃ b, i = .fold b) ∨ ∃ c, i = .meas c) ∧
    (t.matched ≠ s.matched → i = .closeLines ∨ (∃ b, i = .check b) ∨ ∃ c, i = .meas c) ∧
    (t.ack ≠ s.ack → i = .closeLines ∨ i = .openLines ∨ i = .srst ∨ (∃ v, i = .sendb v) ∨ ∃ c, i = .meas c) ∧
    (t.value ≠ s.value ∨ t.rxcrc ≠ s.rxcrc ∨ t.succ ≠ s.succ ∨ t.tout ≠ s.tout → i = .closeLines ∨ ∃ c, i = .meas c) ∧
    (t.pollcnt ≠ s.pollcnt → ∃ c, i = .meas c)

/-- The lifecycle flag and the exchange state (R13, R26): `OPEN` is written by `OPEN` and `CLOSE` alone, `XSTATE` by `MEAS`, `SRST`, `OPEN`
and `CLOSE` alone, `HALTED` never from an unhalted block. -/
def Obligations.LifecycleHasItsWriters : Prop :=
  ∀ (i : Instr) (s t : State), exec i s = .next t →
    (t.isOpen ≠ s.isOpen → i = .openLines ∨ i = .closeLines) ∧
    (t.xstate ≠ s.xstate → i = .openLines ∨ i = .closeLines ∨ i = .srst ∨ ∃ c, i = .meas c) ∧
    t.halted = s.halted

/-- The checksum commands touch no line (R28, 43_checksum_engine.md section 3): no event, no line state, no answer of the device. -/
def Obligations.ChecksumCommandsTouchNoLine : Prop :=
  ∀ (i : Instr) (s t : State), (i = .seed ∨ (∃ b, i = .mirr b) ∨ (∃ b, i = .fold b) ∨ ∃ b, i = .check b) → exec i s = .next t →
    t.trace = s.trace ∧ t.ck = s.ck ∧ t.dt = s.dt ∧ t.device = s.device

/-! ### Encoding -/

/-- Decoding an encoded command gives it back, with every operand at every value (R72). -/
def Obligations.DecodeEncodeRoundTrip : Prop := ∀ i : Instr, decode (encode i) = .command i

/-- A word that decodes to a command is that command's only encoding (R72, R73). -/
def Obligations.EncodingIsUnique : Prop := ∀ (w : Word) (i : Instr), decode w = .command i → w = encode i

/-- The rows of the opcode map are pairwise disjoint (R73): no word is selected by two of them. -/
def Obligations.OpcodeRowsAreDisjoint : Prop :=
  opcodeRows.Pairwise fun r q => ∀ w : Word, ¬ (rowMatches w r = true ∧ rowMatches w q = true)

/-- The legal words are exactly those that pass the checks of R74, and every other word is rejected. -/
def Obligations.LegalWordsPassTheChecks : Prop :=
  ∀ w : Word, ((∃ i, decode w = .command i) ↔ (fieldsOf w).wellFormed = true) ∧
    ((fieldsOf w).wellFormed = false → ∃ why, decode w = .illegal why)

/-- A few words of 95_test_vectors.md V14, one of each family at least, written out as the spec prints them. -/
def Obligations.DecodeVectors : Prop :=
  decode 0x1000 = .command .ckh ∧ decode 0x1400 = .command .dly ∧ decode 0x1401 = .illegal .operandNotZero ∧
    decode 0x2000 = .command .tstart ∧ decode 0x2200 = .illegal .reservedFunction ∧
    decode 0x30FF = .command (.sendb 0xFF) ∧ decode 0x3101 = .command (.readb true) ∧
    decode 0x3102 = .illegal .readAckReservedBits ∧ decode 0x421E = .command (.fold 0x1E) ∧
    decode 0x4306 = .command (.check 0x06) ∧ decode 0x5003 = .command (.meas 0x03) ∧
    decode 0x5300 = .command .closeLines ∧ decode 0x0000 = .illegal .reservedGroup ∧ decode 0xFFFF = .illegal .reservedGroup

/-- The pseudo-instructions expand to the words of R79, the two of `MEASALL` in that order (R168). -/
def Obligations.PseudoInstructionWords : Prop :=
  pseudoTemp.map encode = [0x5003] ∧ pseudoHumi.map encode = [0x5005] ∧ pseudoMeasAll.map encode = [0x5003, 0x5005]

/-- Assembling the text of a command gives that command (R77), with every operand at every value; a comment after it, and blanks around
it, change nothing. -/
def Obligations.AssemblerReadsPrintedCommands : Prop :=
  ∀ (i : Instr) (comment : List Char),
    assembleLine (printLine i) = some [i] ∧ assembleLine (' ' :: printLine i ++ ' ' :: ';' :: comment) = some [i]

/-! ### The host's registers -/

/-- The layout of `STATUS` (R24): each field at its bits, an unwritten flag any value, bits 15 to 9 zero; reading changes no block
state; writing has no effect; the codes of the exchange states (R26). -/
def Obligations.StatusLayout : Prop :=
  (∀ (s : State) (w : Word), hostWrite 1 w s = .next s) ∧
    (∀ s : State, ∃ w t, hostRead 1 s = .ok (w, t) ∧ t = { s with draws := t.draws } ∧
      w.getLsbD 0 = s.isOpen ∧ (∀ v, s.ack = some v → w.getLsbD 1 = v) ∧ (∀ v, s.matched = some v → w.getLsbD 2 = v) ∧
      (∀ v, s.succ = some v → w.getLsbD 3 = v) ∧ (∀ v, s.tout = some v → w.getLsbD 4 = v) ∧
      w.extractLsb' 5 3 = s.xstate.code ∧ w.getLsbD 8 = s.halted ∧ w.extractLsb' 9 7 = 0) ∧
    XState.idle.code = 0 ∧ XState.started.code = 1 ∧ XState.awaitingReady.code = 2 ∧ XState.readingData.code = 3 ∧
      XState.verified.code = 4 ∧ XState.failed.code = 5 ∧ XState.timedOut.code = 6

/-- The host's registers (R30): what a read of each gives while it is written, zero-extended; every register answers, an unwritten one with
any value (R32, U1, U2) and the high byte 0 where it is narrower; `CMD` reads as 0; the codes of `ERR` (R25, R180); a number of 10 or
above is refused; a read leaves the block's state alone. A write to a read-only register has no effect (the model's reading, log entry 6). -/
def Obligations.HostRegisterMap : Prop :=
  (∀ s : State, hostRead 0 s = .ok (0, s) ∧ hostRead 2 s = .ok (s.err.code.zeroExtend 16, s) ∧
      (∀ v, s.crc = some v → hostRead 3 s = .ok (v.zeroExtend 16, s)) ∧ hostRead 4 s = .ok (s.sr.zeroExtend 16, s) ∧
      (∀ v, s.res = some v → hostRead 5 s = .ok (v.zeroExtend 16, s)) ∧
      (∀ v, s.rx = some v → hostRead 6 s = .ok (v.zeroExtend 16, s)) ∧
      (∀ v, s.value = some v → hostRead 7 s = .ok (v, s)) ∧
      (∀ v, s.rxcrc = some v → hostRead 8 s = .ok (v.zeroExtend 16, s)) ∧
      hostRead 9 s = .ok (BitVec.ofNat 16 s.pollcnt, s)) ∧
    (∀ (n : Nat) (s : State), n ≤ 9 → ∃ w t, hostRead n s = .ok (w, t) ∧
      (n ∈ [2, 3, 4, 5, 6, 8] → w.extractLsb' 8 8 = 0) ∧ (n = 2 → w.extractLsb' 2 14 = 0)) ∧
    (ErrCode.noFault.code = 0 ∧ ErrCode.notOpen.code = 1 ∧ ErrCode.illegalCommand.code = 2 ∧ ErrCode.hardwareFault.code = 3) ∧
    (∀ (n : Nat) (s : State) (w : Word) (t : State), hostRead n s = .ok (w, t) → t = { s with draws := t.draws }) ∧
    (∀ (n : Nat) (s : State) (w : Word), 1 ≤ n → n ≤ 9 → hostWrite n w s = .next s) ∧
    ∀ (n : Nat) (s : State) (w : Word), 10 ≤ n →
      hostRead n s = .error (.noSuchHostRegister n) ∧ hostWrite n w s = .refused (.noSuchHostRegister n)

/-- A word written to `CMD` runs the command it decodes to (R70, R186). -/
def Obligations.CommandPortRunsCommand : Prop :=
  ∀ (s : State) (w : Word) (i : Instr), decode w = .command i → s.halted = false → hostWrite 0 w s = exec i s

/-- The spec's reading of the GPIO calls behind the primitives, the sleeps and the sample (R96). -/
def Obligations.GpioCallsOfPrimitives : Prop :=
  ∀ (p : Params) (n : Nat) (v : Bool),
    gpioCall p .ckHigh = some (.setLevel p.clockLine true) ∧ gpioCall p .ckLow = some (.setLevel p.clockLine false) ∧
      gpioCall p .dtLow = some (.configurePin p.dataLine .output (some false)) ∧
      gpioCall p .dtRel = some (.configurePin p.dataLine .input none) ∧
      gpioCall p .delay = some (.sleepMicroseconds p.tDelay) ∧ gpioCall p (.sleepMs n) = some (.sleepMilliseconds n) ∧
      gpioCall p (.sample v) = some (.readLevel p.dataLine)
end

