-- ==== Sys2Proof/Laws/State.lean ====
section
/-! SUPPORT. The field lemmas of the basic updates: what each leaves of a state, one lemma a field, all by rfl. -/
namespace Sys2Proof.Machine

open Sys2Proof

/-! ### `emit` -/

@[simp] theorem emit_isOpen (e : Event) (s : State) : (emit e s).isOpen = s.isOpen := rfl
@[simp] theorem emit_sr (e : Event) (s : State) : (emit e s).sr = s.sr := rfl
@[simp] theorem emit_crc (e : Event) (s : State) : (emit e s).crc = s.crc := rfl
@[simp] theorem emit_ck (e : Event) (s : State) : (emit e s).ck = s.ck := rfl
@[simp] theorem emit_dt (e : Event) (s : State) : (emit e s).dt = s.dt := rfl
@[simp] theorem emit_ack (e : Event) (s : State) : (emit e s).ack = s.ack := rfl
@[simp] theorem emit_rx (e : Event) (s : State) : (emit e s).rx = s.rx := rfl
@[simp] theorem emit_res (e : Event) (s : State) : (emit e s).res = s.res := rfl
@[simp] theorem emit_value (e : Event) (s : State) : (emit e s).value = s.value := rfl
@[simp] theorem emit_rxcrc (e : Event) (s : State) : (emit e s).rxcrc = s.rxcrc := rfl
@[simp] theorem emit_succ (e : Event) (s : State) : (emit e s).succ = s.succ := rfl
@[simp] theorem emit_tout (e : Event) (s : State) : (emit e s).tout = s.tout := rfl
@[simp] theorem emit_matched (e : Event) (s : State) : (emit e s).matched = s.matched := rfl
@[simp] theorem emit_err (e : Event) (s : State) : (emit e s).err = s.err := rfl
@[simp] theorem emit_xstate (e : Event) (s : State) : (emit e s).xstate = s.xstate := rfl
@[simp] theorem emit_pollcnt (e : Event) (s : State) : (emit e s).pollcnt = s.pollcnt := rfl
@[simp] theorem emit_trace (e : Event) (s : State) : (emit e s).trace = s.trace ++ [e] := rfl
@[simp] theorem emit_halted (e : Event) (s : State) : (emit e s).halted = s.halted := rfl
@[simp] theorem emit_params (e : Event) (s : State) : (emit e s).params = s.params := rfl
@[simp] theorem emit_program (e : Event) (s : State) : (emit e s).program = s.program := rfl
@[simp] theorem emit_index (e : Event) (s : State) : (emit e s).index = s.index := rfl
@[simp] theorem emit_device (e : Event) (s : State) : (emit e s).device = s.device := rfl
@[simp] theorem emit_draws (e : Event) (s : State) : (emit e s).draws = s.draws := rfl

/-! ### `sleep` -/

@[simp] theorem sleep_isOpen (n : Nat) (s : State) : (sleep n s).isOpen = s.isOpen := rfl
@[simp] theorem sleep_sr (n : Nat) (s : State) : (sleep n s).sr = s.sr := rfl
@[simp] theorem sleep_crc (n : Nat) (s : State) : (sleep n s).crc = s.crc := rfl
@[simp] theorem sleep_ck (n : Nat) (s : State) : (sleep n s).ck = s.ck := rfl
@[simp] theorem sleep_dt (n : Nat) (s : State) : (sleep n s).dt = s.dt := rfl
@[simp] theorem sleep_ack (n : Nat) (s : State) : (sleep n s).ack = s.ack := rfl
@[simp] theorem sleep_rx (n : Nat) (s : State) : (sleep n s).rx = s.rx := rfl
@[simp] theorem sleep_res (n : Nat) (s : State) : (sleep n s).res = s.res := rfl
@[simp] theorem sleep_value (n : Nat) (s : State) : (sleep n s).value = s.value := rfl
@[simp] theorem sleep_rxcrc (n : Nat) (s : State) : (sleep n s).rxcrc = s.rxcrc := rfl
@[simp] theorem sleep_succ (n : Nat) (s : State) : (sleep n s).succ = s.succ := rfl
@[simp] theorem sleep_tout (n : Nat) (s : State) : (sleep n s).tout = s.tout := rfl
@[simp] theorem sleep_matched (n : Nat) (s : State) : (sleep n s).matched = s.matched := rfl
@[simp] theorem sleep_err (n : Nat) (s : State) : (sleep n s).err = s.err := rfl
@[simp] theorem sleep_xstate (n : Nat) (s : State) : (sleep n s).xstate = s.xstate := rfl
@[simp] theorem sleep_pollcnt (n : Nat) (s : State) : (sleep n s).pollcnt = s.pollcnt := rfl
@[simp] theorem sleep_trace (n : Nat) (s : State) : (sleep n s).trace = s.trace ++ [.sleepMs n] := rfl
@[simp] theorem sleep_halted (n : Nat) (s : State) : (sleep n s).halted = s.halted := rfl
@[simp] theorem sleep_params (n : Nat) (s : State) : (sleep n s).params = s.params := rfl
@[simp] theorem sleep_program (n : Nat) (s : State) : (sleep n s).program = s.program := rfl
@[simp] theorem sleep_index (n : Nat) (s : State) : (sleep n s).index = s.index := rfl
@[simp] theorem sleep_device (n : Nat) (s : State) : (sleep n s).device = s.device := rfl
@[simp] theorem sleep_draws (n : Nat) (s : State) : (sleep n s).draws = s.draws := rfl

/-! ### `accept` -/

@[simp] theorem accept_isOpen (s : State) : (accept s).isOpen = s.isOpen := rfl
@[simp] theorem accept_sr (s : State) : (accept s).sr = s.sr := rfl
@[simp] theorem accept_crc (s : State) : (accept s).crc = s.crc := rfl
@[simp] theorem accept_ck (s : State) : (accept s).ck = s.ck := rfl
@[simp] theorem accept_dt (s : State) : (accept s).dt = s.dt := rfl
@[simp] theorem accept_ack (s : State) : (accept s).ack = s.ack := rfl
@[simp] theorem accept_rx (s : State) : (accept s).rx = s.rx := rfl
@[simp] theorem accept_res (s : State) : (accept s).res = s.res := rfl
@[simp] theorem accept_value (s : State) : (accept s).value = s.value := rfl
@[simp] theorem accept_rxcrc (s : State) : (accept s).rxcrc = s.rxcrc := rfl
@[simp] theorem accept_succ (s : State) : (accept s).succ = s.succ := rfl
@[simp] theorem accept_tout (s : State) : (accept s).tout = s.tout := rfl
@[simp] theorem accept_matched (s : State) : (accept s).matched = s.matched := rfl
@[simp] theorem accept_err (s : State) : (accept s).err = .noFault := rfl
@[simp] theorem accept_xstate (s : State) : (accept s).xstate = s.xstate := rfl
@[simp] theorem accept_pollcnt (s : State) : (accept s).pollcnt = s.pollcnt := rfl
@[simp] theorem accept_trace (s : State) : (accept s).trace = s.trace := rfl
@[simp] theorem accept_halted (s : State) : (accept s).halted = s.halted := rfl
@[simp] theorem accept_params (s : State) : (accept s).params = s.params := rfl
@[simp] theorem accept_program (s : State) : (accept s).program = s.program := rfl
@[simp] theorem accept_index (s : State) : (accept s).index = s.index := rfl
@[simp] theorem accept_device (s : State) : (accept s).device = s.device := rfl
@[simp] theorem accept_draws (s : State) : (accept s).draws = s.draws := rfl

/-! ### `seedCrc` -/

@[simp] theorem seedCrc_isOpen (s : State) : (seedCrc s).isOpen = s.isOpen := rfl
@[simp] theorem seedCrc_sr (s : State) : (seedCrc s).sr = s.sr := rfl
@[simp] theorem seedCrc_crc (s : State) : (seedCrc s).crc = some (seedOf s.sr) := rfl
@[simp] theorem seedCrc_ck (s : State) : (seedCrc s).ck = s.ck := rfl
@[simp] theorem seedCrc_dt (s : State) : (seedCrc s).dt = s.dt := rfl
@[simp] theorem seedCrc_ack (s : State) : (seedCrc s).ack = s.ack := rfl
@[simp] theorem seedCrc_rx (s : State) : (seedCrc s).rx = s.rx := rfl
@[simp] theorem seedCrc_res (s : State) : (seedCrc s).res = s.res := rfl
@[simp] theorem seedCrc_value (s : State) : (seedCrc s).value = s.value := rfl
@[simp] theorem seedCrc_rxcrc (s : State) : (seedCrc s).rxcrc = s.rxcrc := rfl
@[simp] theorem seedCrc_succ (s : State) : (seedCrc s).succ = s.succ := rfl
@[simp] theorem seedCrc_tout (s : State) : (seedCrc s).tout = s.tout := rfl
@[simp] theorem seedCrc_matched (s : State) : (seedCrc s).matched = s.matched := rfl
@[simp] theorem seedCrc_err (s : State) : (seedCrc s).err = s.err := rfl
@[simp] theorem seedCrc_xstate (s : State) : (seedCrc s).xstate = s.xstate := rfl
@[simp] theorem seedCrc_pollcnt (s : State) : (seedCrc s).pollcnt = s.pollcnt := rfl
@[simp] theorem seedCrc_trace (s : State) : (seedCrc s).trace = s.trace := rfl
@[simp] theorem seedCrc_halted (s : State) : (seedCrc s).halted = s.halted := rfl
@[simp] theorem seedCrc_params (s : State) : (seedCrc s).params = s.params := rfl
@[simp] theorem seedCrc_program (s : State) : (seedCrc s).program = s.program := rfl
@[simp] theorem seedCrc_index (s : State) : (seedCrc s).index = s.index := rfl
@[simp] theorem seedCrc_device (s : State) : (seedCrc s).device = s.device := rfl
@[simp] theorem seedCrc_draws (s : State) : (seedCrc s).draws = s.draws := rfl

/-! ### `consume` -/

@[simp] theorem consume_isOpen (n : Nat) (s : State) : (consume n s).isOpen = s.isOpen := rfl
@[simp] theorem consume_sr (n : Nat) (s : State) : (consume n s).sr = s.sr := rfl
@[simp] theorem consume_crc (n : Nat) (s : State) : (consume n s).crc = s.crc := rfl
@[simp] theorem consume_ck (n : Nat) (s : State) : (consume n s).ck = s.ck := rfl
@[simp] theorem consume_dt (n : Nat) (s : State) : (consume n s).dt = s.dt := rfl
@[simp] theorem consume_ack (n : Nat) (s : State) : (consume n s).ack = s.ack := rfl
@[simp] theorem consume_rx (n : Nat) (s : State) : (consume n s).rx = s.rx := rfl
@[simp] theorem consume_res (n : Nat) (s : State) : (consume n s).res = s.res := rfl
@[simp] theorem consume_value (n : Nat) (s : State) : (consume n s).value = s.value := rfl
@[simp] theorem consume_rxcrc (n : Nat) (s : State) : (consume n s).rxcrc = s.rxcrc := rfl
@[simp] theorem consume_succ (n : Nat) (s : State) : (consume n s).succ = s.succ := rfl
@[simp] theorem consume_tout (n : Nat) (s : State) : (consume n s).tout = s.tout := rfl
@[simp] theorem consume_matched (n : Nat) (s : State) : (consume n s).matched = s.matched := rfl
@[simp] theorem consume_err (n : Nat) (s : State) : (consume n s).err = s.err := rfl
@[simp] theorem consume_xstate (n : Nat) (s : State) : (consume n s).xstate = s.xstate := rfl
@[simp] theorem consume_pollcnt (n : Nat) (s : State) : (consume n s).pollcnt = s.pollcnt := rfl
@[simp] theorem consume_trace (n : Nat) (s : State) : (consume n s).trace = s.trace := rfl
@[simp] theorem consume_halted (n : Nat) (s : State) : (consume n s).halted = s.halted := rfl
@[simp] theorem consume_params (n : Nat) (s : State) : (consume n s).params = s.params := rfl
@[simp] theorem consume_program (n : Nat) (s : State) : (consume n s).program = s.program := rfl
@[simp] theorem consume_index (n : Nat) (s : State) : (consume n s).index = s.index := rfl
@[simp] theorem consume_device (n : Nat) (s : State) : (consume n s).device = s.device.drop n := rfl
@[simp] theorem consume_draws (n : Nat) (s : State) : (consume n s).draws = s.draws + (n - s.device.length) := rfl

/-! ### `configureClock` -/

@[simp] theorem configureClock_isOpen (s : State) : (configureClock s).isOpen = s.isOpen := rfl
@[simp] theorem configureClock_sr (s : State) : (configureClock s).sr = s.sr := rfl
@[simp] theorem configureClock_crc (s : State) : (configureClock s).crc = s.crc := rfl
@[simp] theorem configureClock_ck (s : State) : (configureClock s).ck = .low := rfl
@[simp] theorem configureClock_dt (s : State) : (configureClock s).dt = s.dt := rfl
@[simp] theorem configureClock_ack (s : State) : (configureClock s).ack = s.ack := rfl
@[simp] theorem configureClock_rx (s : State) : (configureClock s).rx = s.rx := rfl
@[simp] theorem configureClock_res (s : State) : (configureClock s).res = s.res := rfl
@[simp] theorem configureClock_value (s : State) : (configureClock s).value = s.value := rfl
@[simp] theorem configureClock_rxcrc (s : State) : (configureClock s).rxcrc = s.rxcrc := rfl
@[simp] theorem configureClock_succ (s : State) : (configureClock s).succ = s.succ := rfl
@[simp] theorem configureClock_tout (s : State) : (configureClock s).tout = s.tout := rfl
@[simp] theorem configureClock_matched (s : State) : (configureClock s).matched = s.matched := rfl
@[simp] theorem configureClock_err (s : State) : (configureClock s).err = s.err := rfl
@[simp] theorem configureClock_xstate (s : State) : (configureClock s).xstate = s.xstate := rfl
@[simp] theorem configureClock_pollcnt (s : State) : (configureClock s).pollcnt = s.pollcnt := rfl
@[simp] theorem configureClock_trace (s : State) : (configureClock s).trace = s.trace ++ [.cfgOutLow s.params.clockLine] := rfl
@[simp] theorem configureClock_halted (s : State) : (configureClock s).halted = s.halted := rfl
@[simp] theorem configureClock_params (s : State) : (configureClock s).params = s.params := rfl
@[simp] theorem configureClock_program (s : State) : (configureClock s).program = s.program := rfl
@[simp] theorem configureClock_index (s : State) : (configureClock s).index = s.index := rfl
@[simp] theorem configureClock_device (s : State) : (configureClock s).device = s.device := rfl
@[simp] theorem configureClock_draws (s : State) : (configureClock s).draws = s.draws := rfl

/-! ### `configureData` -/

@[simp] theorem configureData_isOpen (s : State) : (configureData s).isOpen = s.isOpen := rfl
@[simp] theorem configureData_sr (s : State) : (configureData s).sr = s.sr := rfl
@[simp] theorem configureData_crc (s : State) : (configureData s).crc = s.crc := rfl
@[simp] theorem configureData_ck (s : State) : (configureData s).ck = s.ck := rfl
@[simp] theorem configureData_dt (s : State) : (configureData s).dt = .low := rfl
@[simp] theorem configureData_ack (s : State) : (configureData s).ack = s.ack := rfl
@[simp] theorem configureData_rx (s : State) : (configureData s).rx = s.rx := rfl
@[simp] theorem configureData_res (s : State) : (configureData s).res = s.res := rfl
@[simp] theorem configureData_value (s : State) : (configureData s).value = s.value := rfl
@[simp] theorem configureData_rxcrc (s : State) : (configureData s).rxcrc = s.rxcrc := rfl
@[simp] theorem configureData_succ (s : State) : (configureData s).succ = s.succ := rfl
@[simp] theorem configureData_tout (s : State) : (configureData s).tout = s.tout := rfl
@[simp] theorem configureData_matched (s : State) : (configureData s).matched = s.matched := rfl
@[simp] theorem configureData_err (s : State) : (configureData s).err = s.err := rfl
@[simp] theorem configureData_xstate (s : State) : (configureData s).xstate = s.xstate := rfl
@[simp] theorem configureData_pollcnt (s : State) : (configureData s).pollcnt = s.pollcnt := rfl
@[simp] theorem configureData_trace (s : State) : (configureData s).trace = s.trace ++ [.cfgOutLow s.params.dataLine] := rfl
@[simp] theorem configureData_halted (s : State) : (configureData s).halted = s.halted := rfl
@[simp] theorem configureData_params (s : State) : (configureData s).params = s.params := rfl
@[simp] theorem configureData_program (s : State) : (configureData s).program = s.program := rfl
@[simp] theorem configureData_index (s : State) : (configureData s).index = s.index := rfl
@[simp] theorem configureData_device (s : State) : (configureData s).device = s.device := rfl
@[simp] theorem configureData_draws (s : State) : (configureData s).draws = s.draws := rfl

/-! ### `releaseClock` -/

@[simp] theorem releaseClock_isOpen (s : State) : (releaseClock s).isOpen = s.isOpen := rfl
@[simp] theorem releaseClock_sr (s : State) : (releaseClock s).sr = s.sr := rfl
@[simp] theorem releaseClock_crc (s : State) : (releaseClock s).crc = s.crc := rfl
@[simp] theorem releaseClock_ck (s : State) : (releaseClock s).ck = .off := rfl
@[simp] theorem releaseClock_dt (s : State) : (releaseClock s).dt = s.dt := rfl
@[simp] theorem releaseClock_ack (s : State) : (releaseClock s).ack = s.ack := rfl
@[simp] theorem releaseClock_rx (s : State) : (releaseClock s).rx = s.rx := rfl
@[simp] theorem releaseClock_res (s : State) : (releaseClock s).res = s.res := rfl
@[simp] theorem releaseClock_value (s : State) : (releaseClock s).value = s.value := rfl
@[simp] theorem releaseClock_rxcrc (s : State) : (releaseClock s).rxcrc = s.rxcrc := rfl
@[simp] theorem releaseClock_succ (s : State) : (releaseClock s).succ = s.succ := rfl
@[simp] theorem releaseClock_tout (s : State) : (releaseClock s).tout = s.tout := rfl
@[simp] theorem releaseClock_matched (s : State) : (releaseClock s).matched = s.matched := rfl
@[simp] theorem releaseClock_err (s : State) : (releaseClock s).err = s.err := rfl
@[simp] theorem releaseClock_xstate (s : State) : (releaseClock s).xstate = s.xstate := rfl
@[simp] theorem releaseClock_pollcnt (s : State) : (releaseClock s).pollcnt = s.pollcnt := rfl
@[simp] theorem releaseClock_trace (s : State) : (releaseClock s).trace = s.trace ++ [.relLine s.params.clockLine] := rfl
@[simp] theorem releaseClock_halted (s : State) : (releaseClock s).halted = s.halted := rfl
@[simp] theorem releaseClock_params (s : State) : (releaseClock s).params = s.params := rfl
@[simp] theorem releaseClock_program (s : State) : (releaseClock s).program = s.program := rfl
@[simp] theorem releaseClock_index (s : State) : (releaseClock s).index = s.index := rfl
@[simp] theorem releaseClock_device (s : State) : (releaseClock s).device = s.device := rfl
@[simp] theorem releaseClock_draws (s : State) : (releaseClock s).draws = s.draws := rfl

/-! ### `releaseData` -/

@[simp] theorem releaseData_isOpen (s : State) : (releaseData s).isOpen = s.isOpen := rfl
@[simp] theorem releaseData_sr (s : State) : (releaseData s).sr = s.sr := rfl
@[simp] theorem releaseData_crc (s : State) : (releaseData s).crc = s.crc := rfl
@[simp] theorem releaseData_ck (s : State) : (releaseData s).ck = s.ck := rfl
@[simp] theorem releaseData_dt (s : State) : (releaseData s).dt = .off := rfl
@[simp] theorem releaseData_ack (s : State) : (releaseData s).ack = s.ack := rfl
@[simp] theorem releaseData_rx (s : State) : (releaseData s).rx = s.rx := rfl
@[simp] theorem releaseData_res (s : State) : (releaseData s).res = s.res := rfl
@[simp] theorem releaseData_value (s : State) : (releaseData s).value = s.value := rfl
@[simp] theorem releaseData_rxcrc (s : State) : (releaseData s).rxcrc = s.rxcrc := rfl
@[simp] theorem releaseData_succ (s : State) : (releaseData s).succ = s.succ := rfl
@[simp] theorem releaseData_tout (s : State) : (releaseData s).tout = s.tout := rfl
@[simp] theorem releaseData_matched (s : State) : (releaseData s).matched = s.matched := rfl
@[simp] theorem releaseData_err (s : State) : (releaseData s).err = s.err := rfl
@[simp] theorem releaseData_xstate (s : State) : (releaseData s).xstate = s.xstate := rfl
@[simp] theorem releaseData_pollcnt (s : State) : (releaseData s).pollcnt = s.pollcnt := rfl
@[simp] theorem releaseData_trace (s : State) : (releaseData s).trace = s.trace ++ [.relLine s.params.dataLine] := rfl
@[simp] theorem releaseData_halted (s : State) : (releaseData s).halted = s.halted := rfl
@[simp] theorem releaseData_params (s : State) : (releaseData s).params = s.params := rfl
@[simp] theorem releaseData_program (s : State) : (releaseData s).program = s.program := rfl
@[simp] theorem releaseData_index (s : State) : (releaseData s).index = s.index := rfl
@[simp] theorem releaseData_device (s : State) : (releaseData s).device = s.device := rfl
@[simp] theorem releaseData_draws (s : State) : (releaseData s).draws = s.draws := rfl

end Sys2Proof.Machine
end

