-- ==== Sys2Proof/Laws/Device.lean ====
section
/-! SUPPORT. The device's answers: what one sample does, and how answers and their use compose (spec 20_memory.md R50, R51). -/
namespace Sys2Proof.Machine

open Sys2Proof

theorem consume_zero (s : State) : consume 0 s = s := by
  simp [consume]

theorem consume_consume (m n : Nat) (s : State) : consume n (consume m s) = consume (m + n) s := by
  simp only [consume, List.drop_drop, List.length_drop, State.mk.injEq, true_and]
  omega

theorem oracle_consume (m k : Nat) (s : State) : oracle (consume m s) k = oracle s (m + k) := by
  simp only [oracle, consume, List.getElem?_drop, List.length_drop]
  rcases h : s.device[m + k]? with _ | v
  · have := List.getElem?_eq_none_iff.mp h
    simp only
    congr 1
    omega
  · rfl

/-- Answers depend on the list of answers and the count of draws alone. -/
theorem oracle_congr {s t : State} (hd : t.device = s.device) (hw : t.draws = s.draws) (k : Nat) : oracle t k = oracle s k := by
  simp only [oracle, hd, hw]

theorem answerByte_congr {s t : State} (hd : t.device = s.device) (hw : t.draws = s.draws) (k : Nat) :
    answerByte t k = answerByte s k := by
  simp only [answerByte, oracle_congr hd hw]

theorem answerByte_consume (m k : Nat) (s : State) : answerByte (consume m s) k = answerByte s (m + k) := by
  simp only [answerByte, oracle_consume, Nat.add_assoc]

/-- `dev()` gives answer 0 and uses it up. -/
theorem dev_eq (s : State) : dev s = (oracle s 0, consume 1 s) := by
  simp only [dev, oracle, consume]
  rcases h : s.device with _ | ⟨v, rest⟩
  · cases s; simp_all
  · simp

/-- A sample while the block holds the line low reads 0 and asks the device nothing. -/
theorem sample_low {s : State} (h : s.dt = .low) : sample s = (false, emit (.sample false) s) := by
  simp [sample, h]

/-- Any other sample reads the device's next answer. -/
theorem sample_device {s : State} (h : s.dt ≠ .low) : sample s = (oracle s 0, emit (.sample (oracle s 0)) (consume 1 s)) := by
  rcases hd : s.dt with _ | _ | _
  · simp [sample, hd, dev_eq]
  · exact absurd hd h
  · simp [sample, hd, dev_eq]

end Sys2Proof.Machine
end

