-- ==== Sys2Proof/Laws/Checksum.lean ====
section
/-! SUPPORT. The small laws of the checksum engine's functions (spec 43_checksum_engine.md R130, R131) and of the value's assembly. -/
namespace Sys2Proof.Machine

open Sys2Proof

theorem mirror_getLsbD (b : Byte) : ∀ i, i < 8 → (mirror b).getLsbD i = b.getLsbD (7 - i) := by
  revert b
  decide +kernel

theorem seedOf_zero : seedOf 0 = 0 := by decide

/-- One bit-update is linear over the exclusive or of its two arguments. -/
theorem foldBit_xor (a a' b b' : Byte) : foldBit (a ^^^ a') (b ^^^ b') = foldBit a b ^^^ foldBit a' b' := by
  have ht : ((a ^^^ a') ^^^ (b ^^^ b')).getLsbD 7 = ((a ^^^ b).getLsbD 7 ^^ (a' ^^^ b').getLsbD 7) := by
    simp only [BitVec.getLsbD_xor]
    cases a.getLsbD 7 <;> cases a'.getLsbD 7 <;> cases b.getLsbD 7 <;> cases b'.getLsbD 7 <;> rfl
  have hs : (a ^^^ a') <<< 1 = a <<< 1 ^^^ a' <<< 1 := BitVec.shiftLeft_xor_distrib ..
  simp only [foldBit, ht, hs]
  generalize (a ^^^ b).getLsbD 7 = p, (a' ^^^ b').getLsbD 7 = q, a <<< 1 = x, a' <<< 1 = y, Config.crcPoly = z
  apply BitVec.eq_of_getLsbD_eq
  intro i _
  cases p <;> cases q <;>
    simp only [Bool.xor_false, Bool.xor_true, Bool.not_true, Bool.not_false, if_true, if_false, Bool.false_eq_true,
      BitVec.getLsbD_xor] <;>
    cases x.getLsbD i <;> cases y.getLsbD i <;> cases z.getLsbD i <;> rfl

/-- So is any number of them. -/
theorem foldBits_xor (n : Nat) (a a' b b' : Byte) : foldBits n (a ^^^ a') (b ^^^ b') = foldBits n a b ^^^ foldBits n a' b' := by
  induction n generalizing a a' b b' with
  | zero => rfl
  | succ n ih => simp only [foldBits, foldBit_xor, BitVec.shiftLeft_xor_distrib, ih]

theorem assembleValue_eq (h l : Byte) : assembleValue h l = h ++ l := by
  apply BitVec.eq_of_getLsbD_eq
  intro i hi
  simp only [assembleValue, BitVec.getLsbD_or, BitVec.getLsbD_shiftLeft, BitVec.getLsbD_append, BitVec.truncate_eq_setWidth,
    BitVec.getLsbD_setWidth]
  by_cases h8 : i < 8
  · simp only [h8, hi, decide_true, Bool.true_and, if_true, Bool.not_true, Bool.and_false, Bool.false_and, Bool.false_or]
  · have h16 : i - 8 < 16 := by omega
    have hl : l.getLsbD i = false := BitVec.getLsbD_of_ge l i (by omega)
    simp only [h8, hi, h16, hl, decide_true, decide_false, Bool.true_and, Bool.not_false, Bool.and_true, Bool.and_false,
      Bool.or_false, if_false]

end Sys2Proof.Machine
end

