-- ==== Sys2Proof/Laws/Sequencer.lean ====
section
/-! SUPPORT. What a list of primitives does (spec 41_sequences.md R102): it writes the two lines and appends its events, nothing else. -/
namespace Sys2Proof.Machine

open Sys2Proof

/-- The event of a primitive. -/
def primEvent : Prim → Event
  | .clockHigh => .ckHigh
  | .clockLow => .ckLow
  | .dataAssertLow => .dtLow
  | .dataRelease => .dtRel
  | .delay => .delay

/-- The clock line after a primitive. -/
def primClock (c : ClockLine) : Prim → ClockLine
  | .clockHigh => .high
  | .clockLow => .low
  | .dataAssertLow | .dataRelease | .delay => c

/-- The data line after a primitive. -/
def primData (d : DataLine) : Prim → DataLine
  | .dataAssertLow => .low
  | .dataRelease => .rel
  | .clockHigh | .clockLow | .delay => d

theorem perform_eq (p : Prim) (s : State) :
    perform p s = { s with ck := primClock s.ck p, dt := primData s.dt p, trace := s.trace ++ [primEvent p] } := by
  cases p <;> rfl

/-- Everything a list of primitives can do. -/
theorem performAll_eq (ps : List Prim) (s : State) :
    performAll ps s =
      { s with
        ck := ps.foldl primClock s.ck
        dt := ps.foldl primData s.dt
        trace := s.trace ++ ps.map primEvent } := by
  induction ps generalizing s with
  | nil => simp [performAll]
  | cons p ps ih => simp [performAll, ih, perform_eq]

theorem performAll_append (ps qs : List Prim) (s : State) : performAll (ps ++ qs) s = performAll qs (performAll ps s) := by
  induction ps generalizing s with
  | nil => rfl
  | cons p ps ih => exact ih _

theorem performAll_tstart (s : State) :
    performAll tstartPrims s = { s with ck := .low, dt := .rel, trace := s.trace ++ tstartEvents } := by
  rw [performAll_eq]; rfl

theorem performAll_creset (s : State) :
    performAll cresetPrims s = { s with ck := .low, dt := .rel, trace := s.trace ++ cresetEvents } := by
  rw [performAll_eq]; rfl

/-- A sampled pulse while the block holds the data line low. -/
theorem samplePulse_low {s : State} (h : s.dt = .low) :
    samplePulse s = (false, { s with ck := .low, trace := s.trace ++ readBitEvents false }) := by
  have hs : sample (performAll [.clockHigh, .delay] s) = _ := sample_low (by rw [performAll_eq]; exact h)
  simp only [samplePulse, hs]
  simp [performAll_eq, emit, primClock, primData, primEvent, readBitEvents]

/-- A sampled pulse on a line the block does not hold low. -/
theorem samplePulse_device {s : State} (h : s.dt ≠ .low) :
    samplePulse s =
      (oracle s 0, { consume 1 s with ck := .low, trace := s.trace ++ readBitEvents (oracle s 0) }) := by
  have hs : sample (performAll [.clockHigh, .delay] s) = _ := sample_device (by rw [performAll_eq]; exact h)
  have ho : oracle (performAll [.clockHigh, .delay] s) 0 = oracle s 0 := by rw [performAll_eq]; rfl
  simp only [samplePulse, hs, ho]
  simp [performAll_eq, emit, consume, primClock, primData, primEvent, readBitEvents]

end Sys2Proof.Machine
end

