-- ==== Sys2Proof/Laws/Transceiver.lean ====
section
/-! SUPPORT. What sending and reading a byte does (spec 42_byte_transceiver.md R110, R115). -/
namespace Sys2Proof.Machine

open Sys2Proof

/-- Everything a send can do. -/
theorem sendByte_eq (v : Byte) (s : State) :
    sendByte v s =
      { consume 1 s with
        ck := .low
        dt := .rel
        ack := some (!oracle s 0)
        trace := s.trace ++ sendEvents v (oracle s 0) } := by
  have hp : performAll ((bitsMsbFirst v).flatMap sendBitPrims ++ [.dataRelease, .delay]) s =
      { s with
        ck := .low
        dt := .rel
        trace := s.trace ++ (sendBitEvents (v.getLsbD 7) ++ sendBitEvents (v.getLsbD 6) ++ sendBitEvents (v.getLsbD 5) ++
          sendBitEvents (v.getLsbD 4) ++ sendBitEvents (v.getLsbD 3) ++ sendBitEvents (v.getLsbD 2) ++
          sendBitEvents (v.getLsbD 1) ++ sendBitEvents (v.getLsbD 0) ++ [.dtRel, .delay]) } := by
    have he (b : Bool) : (sendBitPrims b).map primEvent = sendBitEvents b := by cases b <;> rfl
    have hc (b : Bool) (c : ClockLine) : (sendBitPrims b).foldl primClock c = .low := by cases b <;> rfl
    rw [performAll_eq]
    simp [bitsMsbFirst, he, hc, primEvent, primClock, primData]
  rw [performAll_append] at hp
  simp only [sendByte, sendAckPhase, hp]
  rw [samplePulse_device (by simp)]
  simp [consume, oracle, ackFlag, sendEvents, readBitEvents]

/-- The events of the bits a read receives. -/
def bitEvents (bs : List Bool) : List Event := bs.flatMap readBitEvents

/-- Everything `n + 1` received bits can do on a line the block does not hold low. -/
theorem readBits_device (n : Nat) {s : State} (h : s.dt ≠ .low) :
    readBits (n + 1) s =
      ((List.range (n + 1)).map (oracle s),
        { consume (n + 1) s with ck := .low, trace := s.trace ++ bitEvents ((List.range (n + 1)).map (oracle s)) }) := by
  induction n generalizing s with
  | zero => simp [readBits, samplePulse_device h, bitEvents]
  | succ n ih =>
    rw [readBits, samplePulse_device h, ih (by simpa using h)]
    have ho : (oracle { consume 1 s with ck := .low, trace := s.trace ++ readBitEvents (oracle s 0) }) = fun k => oracle s (k + 1) := by
      funext k
      exact (oracle_congr (s := consume 1 s) rfl rfl k).trans (by rw [oracle_consume, Nat.add_comm])
    have hc : consume (n + 1) (consume 1 s) = consume (n + 1 + 1) s := by
      rw [consume_consume, Nat.add_comm]
    simp only [ho]
    rw [List.range_succ_eq_map (n := n + 1)]
    simp only [List.map_cons, List.map_map, Function.comp_def, Prod.mk.injEq, true_and]
    simp only [bitEvents, List.flatMap_cons, ← List.append_assoc]
    simp only [consume, State.mk.injEq, true_and] at hc ⊢
    simp only [hc, and_self]

/-- Everything received bits can do while the block holds the line low: zeros, and no answer used up. -/
theorem readBits_low (n : Nat) {s : State} (h : s.dt = .low) :
    readBits (n + 1) s =
      (List.replicate (n + 1) false,
        { s with ck := .low, trace := s.trace ++ bitEvents (List.replicate (n + 1) false) }) := by
  induction n generalizing s with
  | zero => simp [readBits, samplePulse_low h, bitEvents]
  | succ n ih =>
    rw [readBits, samplePulse_low h, ih (by simpa using h)]
    simp [bitEvents, List.replicate_succ (n := n + 1), List.append_assoc]

theorem byteOfBits_eq (b₀ b₁ b₂ b₃ b₄ b₅ b₆ b₇ : Bool) :
    byteOfBits [b₀, b₁, b₂, b₃, b₄, b₅, b₆, b₇] =
      BitVec.ofBool b₀ ++ BitVec.ofBool b₁ ++ BitVec.ofBool b₂ ++ BitVec.ofBool b₃ ++ BitVec.ofBool b₄ ++ BitVec.ofBool b₅ ++
        BitVec.ofBool b₆ ++ BitVec.ofBool b₇ := by
  revert b₀ b₁ b₂ b₃ b₄ b₅ b₆ b₇
  decide

theorem readEvents_bits (a : Bool) (b₀ b₁ b₂ b₃ b₄ b₅ b₆ b₇ : Bool) :
    readEvents a (byteOfBits [b₀, b₁, b₂, b₃, b₄, b₅, b₆, b₇]) =
      bitEvents [b₀, b₁, b₂, b₃, b₄, b₅, b₆, b₇] ++ (if a then readAckEvents else []) := by
  have h : ∀ b₀ b₁ b₂ b₃ b₄ b₅ b₆ b₇ : Bool, bitsMsbFirst (byteOfBits [b₀, b₁, b₂, b₃, b₄, b₅, b₆, b₇]) =
      [b₀, b₁, b₂, b₃, b₄, b₅, b₆, b₇] := by decide
  have h := h b₀ b₁ b₂ b₃ b₄ b₅ b₆ b₇
  simp only [bitsMsbFirst, List.cons.injEq] at h
  obtain ⟨h7, h6, h5, h4, h3, h2, h1, h0, -⟩ := h
  simp only [readEvents, h7, h6, h5, h4, h3, h2, h1, h0]
  simp [bitEvents]

/-- The data line after a read: released by the acknowledgment, else as it was (R115). -/
def dataAfterRead (a : Bool) (d : DataLine) : DataLine := if a then .rel else d

/-- Everything a read can do on a line the block does not hold low. -/
theorem readByte_device (a : Bool) {s : State} (h : s.dt ≠ .low) :
    readByte a s =
      (answerByte s 0,
        { consume 8 s with
          ck := .low
          dt := dataAfterRead a s.dt
          rx := some (answerByte s 0)
          trace := s.trace ++ readEvents a (answerByte s 0) }) := by
  have hb : answerByte s 0 = byteOfBits ((List.range 8).map (oracle s)) := (byteOfBits_eq ..).symm
  rw [readByte, readBits_device 7 h, hb]
  simp only [List.range_eq_range', List.range', List.map_cons, List.map_nil]
  rw [readEvents_bits]
  cases a <;> simp [performAll_eq, readAckPrims, primClock, primData, primEvent, dataAfterRead, readAckEvents]

/-- The same, with the byte the device presents given by name. -/
theorem readByte_of_answer (a : Bool) {s : State} {r : Byte} (h : s.dt ≠ .low) (hr : answerByte s 0 = r) :
    readByte a s =
      (r,
        { consume 8 s with
          ck := .low
          dt := dataAfterRead a s.dt
          rx := some r
          trace := s.trace ++ readEvents a r }) :=
  hr ▸ readByte_device a h

/-- Everything a read can do while the block holds the line low (R222): the byte is 0. -/
theorem readByte_low (a : Bool) {s : State} (h : s.dt = .low) :
    readByte a s =
      (0,
        { s with
          ck := .low
          dt := dataAfterRead a .low
          rx := some 0
          trace := s.trace ++ readEvents a 0 }) := by
  have he : readEvents a 0 = bitEvents (List.replicate 8 false) ++ (if a then readAckEvents else []) := by
    cases a <;> rfl
  rw [readByte, readBits_low 7 h, he]
  cases a <;> simp [performAll_eq, readAckPrims, primClock, primData, primEvent, dataAfterRead, readAckEvents, h, byteOfBits,
    pushBit]

end Sys2Proof.Machine
end

