-- ==== Sys2Proof/Laws/Exchange.lean ====
section
/-! SUPPORT. What the composite commands do (spec 44_exchange_controller.md R150 to R165). -/
namespace Sys2Proof.Machine

open Sys2Proof

/-- Everything `FOLD` can do while the accumulator is written. -/
theorem foldCrc_written {s : State} {v : Byte} (h : s.crc = some v) (b : Byte) :
    foldCrc b s = { s with crc := some (crcFold v b) } := by
  simp [foldCrc, readByteReg, h]

/-- Everything `FOLD` can do while the accumulator is unwritten: it folds into a free byte. -/
theorem foldCrc_unwritten {s : State} (h : s.crc = none) (b : Byte) :
    foldCrc b s = { s with crc := some (crcFold (Config.freeByte s.draws) b), draws := s.draws + 1 } := by
  simp [foldCrc, readByteReg, h]

theorem checkCrc_written {s : State} {v : Byte} (h : s.crc = some v) (b : Byte) :
    checkCrc b s = (mirror v == b, s) := by
  simp [checkCrc, readByteReg, h, checksumFlag]

theorem checkCrc_unwritten {s : State} (h : s.crc = none) (b : Byte) :
    checkCrc b s = (mirror (Config.freeByte s.draws) == b, { s with draws := s.draws + 1 }) := by
  simp [checkCrc, readByteReg, h, checksumFlag]

/-- Everything steps 1 and 2 of an exchange can do (R150 to R152). -/
theorem measStart_eq (c : Byte) (s : State) :
    measStart c s =
      { consume 1 s with
        ck := .low
        dt := .rel
        ack := some (!oracle s 0)
        crc := some (crcFold (seedOf s.sr) c)
        xstate := .awaitingReady
        pollcnt := 0
        trace := s.trace ++ tstartEvents ++ sendEvents c (oracle s 0) } := by
  have h : sendByte c (seedCrc (performAll tstartPrims { s with pollcnt := 0, xstate := .started })) =
      { consume 1 s with
        ck := .low
        dt := .rel
        ack := some (!oracle s 0)
        crc := some (seedOf s.sr)
        xstate := .started
        pollcnt := 0
        trace := s.trace ++ tstartEvents ++ sendEvents c (oracle s 0) } := by
    rw [sendByte_eq, performAll_tstart]; rfl
  simp only [measStart, measCommand, measBegin, h]
  rw [foldCrc_written rfl]

/-- One poll on a released line (R153). -/
theorem poll_eq {s : State} (h : s.dt ≠ .low) :
    poll s =
      (oracle s 0,
        { consume 1 s with
          pollcnt := s.pollcnt + 1
          trace := s.trace ++ [.sleepMs s.params.pollMs, .sample (oracle s 0)] }) := by
  have hs : sample (sleep s.params.pollMs s) = _ := sample_device (s := sleep s.params.pollMs s) h
  have ho : oracle (sleep s.params.pollMs s) 0 = oracle s 0 := rfl
  simp only [poll, hs, ho]
  simp [emit, consume, sleep]

theorem silentPolls_succ (ms n : Nat) :
    silentPolls ms (n + 1) = [.sleepMs ms, .sample true] ++ silentPolls ms n := by
  simp [silentPolls, List.replicate_succ]

/-- A wait whose first `j` polls read high continues with the polls that are left (R153). -/
theorem waitReady_silent (j n : Nat) {s : State} (h : s.dt ≠ .low) (hj : ∀ i < j, oracle s i = true) :
    waitReady (j + n) s =
      waitReady n { consume j s with
        pollcnt := s.pollcnt + j
        trace := s.trace ++ silentPolls s.params.pollMs j } := by
  induction j generalizing s with
  | zero => simp [consume, silentPolls]
  | succ j ih =>
    have h0 : oracle s 0 = true := hj 0 (Nat.succ_pos _)
    rw [Nat.add_right_comm, waitReady, poll_eq h]
    simp only [h0, if_true]
    rw [ih (by simpa using h)]
    · have hc : consume j (consume 1 s) = consume (j + 1) s := by rw [consume_consume, Nat.add_comm]
      simp only [consume, State.mk.injEq, true_and] at hc
      obtain ⟨hd, hw⟩ := hc
      simp only [consume, hd, hw, silentPolls_succ, List.append_assoc]
      congr 2
      omega
    · intro i hi
      have := hj (i + 1) (by omega)
      rw [← Nat.add_comm 1 i, ← oracle_consume] at this
      exact (oracle_congr rfl rfl i).trans this

/-- The wait of a device that never signals ready within `n` polls (R156). -/
theorem waitReady_never (n : Nat) {s : State} (h : s.dt ≠ .low) (hn : ∀ i < n, oracle s i = true) :
    waitReady n s =
      (false, { consume n s with pollcnt := s.pollcnt + n, trace := s.trace ++ silentPolls s.params.pollMs n }) := by
  have := waitReady_silent n 0 h hn
  rwa [Nat.add_zero] at this

/-- The wait of a device that is ready at poll `j + 1` (R153). -/
theorem waitReady_ready (j n : Nat) {s : State} (h : s.dt ≠ .low) (hj : ∀ i < j, oracle s i = true) (hr : oracle s j = false) :
    waitReady (j + (n + 1)) s =
      (true, { consume (j + 1) s with
        pollcnt := s.pollcnt + j + 1
        trace := s.trace ++ readyPolls s.params.pollMs (j + 1) }) := by
  rw [waitReady_silent j (n + 1) h hj, waitReady, poll_eq (by simpa using h)]
  have h0 : oracle { consume j s with
      pollcnt := s.pollcnt + j
      trace := s.trace ++ silentPolls s.params.pollMs j } 0 = false :=
    (oracle_congr (s := consume j s) rfl rfl 0).trans (by rw [oracle_consume]; exact hr)
  simp only [h0]
  have hc : consume 1 (consume j s) = consume (j + 1) s := consume_consume j 1 s
  simp only [consume, State.mk.injEq, true_and] at hc
  obtain ⟨hd, hw⟩ := hc
  simp only [consume, hd, hw, readyPolls, Nat.add_sub_cancel, List.append_assoc]
  rfl

/-- Everything the three reads and the verification can do on a released line, from a written accumulator (R154, R155). -/
theorem measRead_eq {s : State} {v : Byte} (h : s.dt = .rel) (hc : s.crc = some v) :
    measRead s =
      { consume 24 s with
        ck := .low
        dt := .rel
        crc := some (crcFold (crcFold v (answerByte s 0)) (answerByte s 8))
        rx := some (answerByte s 16)
        rxcrc := some (answerByte s 16)
        matched := some (checksumFlag (crcFold (crcFold v (answerByte s 0)) (answerByte s 8)) (answerByte s 16))
        succ := some (checksumFlag (crcFold (crcFold v (answerByte s 0)) (answerByte s 8)) (answerByte s 16))
        tout := some false
        value := some (assembleValue (answerByte s 0) (answerByte s 8))
        xstate := verdict (checksumFlag (crcFold (crcFold v (answerByte s 0)) (answerByte s 8)) (answerByte s 16))
        trace := s.trace ++ readEvents true (answerByte s 0) ++ readEvents true (answerByte s 8) ++
          readEvents false (answerByte s 16) } := by
  have hnl : s.dt ≠ .low := by rw [h]; decide
  have c16 : consume 8 (consume 8 s) = consume 16 s := consume_consume 8 8 s
  have c24 : consume 8 (consume 16 s) = consume 24 s := consume_consume 16 8 s
  have r1 := readByte_of_answer true (s := { s with xstate := .readingData }) hnl (answerByte_congr (s := s) rfl rfl 0)
  have r2 := readByte_of_answer true (r := answerByte s 8) (s := { consume 8 s with
    ck := .low, dt := .rel, rx := some (answerByte s 0), xstate := .readingData,
    trace := s.trace ++ readEvents true (answerByte s 0) }) (by simp)
    ((answerByte_congr (s := consume 8 s) rfl rfl 0).trans (answerByte_consume 8 0 s))
  have r3 := readByte_of_answer false (r := answerByte s 16) (s := { consume 16 s with
    ck := .low, dt := .rel, rx := some (answerByte s 8), xstate := .readingData,
    trace := s.trace ++ readEvents true (answerByte s 0) ++ readEvents true (answerByte s 8) }) (by simp)
    ((answerByte_congr (s := consume 16 s) rfl rfl 0).trans (answerByte_consume 16 0 s))
  simp only [consume, State.mk.injEq, true_and] at c16 c24
  simp only [consume, dataAfterRead, if_true] at r1 r2 r3
  simp only [measRead, measTransfer, measEnterRead, r1]
  simp only [c16.1, c16.2] at r2
  simp only [r2]
  simp only [c24.1, c24.2] at r3
  simp only [r3]
  simp [measVerify, foldCrc, readByteReg, checkCrc, hc, consume, verdict, checksumFlag]

/-- Answers after some have been used up, in a state that differs from the used-up one in other fields alone. -/
theorem oracle_after {s t : State} (m k : Nat) (hd : t.device = (consume m s).device) (hw : t.draws = (consume m s).draws) :
    oracle t k = oracle s (m + k) :=
  (oracle_congr hd hw k).trans (oracle_consume m k s)

theorem answerByte_after {s t : State} (m k : Nat) (hd : t.device = (consume m s).device) (hw : t.draws = (consume m s).draws) :
    answerByte t k = answerByte s (m + k) :=
  (answerByte_congr hd hw k).trans (answerByte_consume m k s)

/-- Everything an exchange can do when the device is ready at poll `k` (R150 to R155). -/
theorem measBody_ready (c : Byte) {s : State} {k : Nat} (hk : ReadyAt s k) :
    measBody c s =
      let h := answerByte s (k + 1)
      let l := answerByte s (k + 9)
      let r := answerByte s (k + 17)
      let crc := crcFold (crcFold (crcFold (seedOf s.sr) c) h) l
      { consume (k + 25) s with
        ck := .low
        dt := .rel
        ack := some (!oracle s 0)
        crc := some crc
        rx := some r
        rxcrc := some r
        matched := some (checksumFlag crc r)
        succ := some (checksumFlag crc r)
        tout := some false
        value := some (assembleValue h l)
        xstate := verdict (checksumFlag crc r)
        pollcnt := k
        trace := s.trace ++ measReadyEvents s.params c (oracle s 0) k h l r } := by
  obtain ⟨h1, h2, h3, h4⟩ := hk
  obtain ⟨j, rfl⟩ : ∃ j, k = 1 + j := ⟨k - 1, by omega⟩
  obtain ⟨n, hn⟩ : ∃ n, s.params.maxPolls = j + (n + 1) := ⟨s.params.maxPolls - j - 1, by omega⟩
  have hw := waitReady_ready j n (s := measStart c s) (by rw [measStart_eq]; simp)
    (fun i hi => by
      rw [measStart_eq]
      exact (oracle_after 1 i rfl rfl).trans (h3 (1 + i) (by omega) (by omega)))
    (by
      rw [measStart_eq]
      exact (oracle_after 1 j rfl rfl).trans h4)
  simp only [measBody, hn, hw, if_true]
  rw [measRead_eq (v := crcFold (seedOf s.sr) c) (by simp [measStart_eq]) (by simp [measStart_eq])]
  have ha (i : Nat) : answerByte { consume (j + 1) (measStart c s) with
      pollcnt := (measStart c s).pollcnt + j + 1
      trace := (measStart c s).trace ++ readyPolls (measStart c s).params.pollMs (j + 1) } i = answerByte s (1 + (j + 1 + i)) := by
    rw [measStart_eq]
    exact (answerByte_after (s := { consume 1 s with xstate := .idle }) (j + 1) i rfl rfl).trans (answerByte_after 1 (j + 1 + i) rfl rfl)
  have hc : consume 24 (consume (j + 1) (consume 1 s)) = consume (1 + j + 25) s := by
    rw [consume_consume, consume_consume, show 1 + (j + 1 + 24) = 1 + j + 25 from by omega]
  simp only [ha]
  simp only [measStart_eq]
  simp only [consume, State.mk.injEq, true_and] at hc
  simp only [consume, hc.1, hc.2, State.mk.injEq, true_and, measReadyEvents, List.append_assoc, Nat.zero_add, Nat.add_zero]
  rw [show 1 + (j + 1) = 1 + j + 1 from by omega, show 1 + (j + 1 + 8) = 1 + j + 9 from by omega,
    show 1 + (j + 1 + 16) = 1 + j + 17 from by omega, Nat.add_comm 1 j]
  simp

/-- Everything an exchange can do when the device never signals ready (R156). -/
theorem measBody_timeout (c : Byte) {s : State} (hn : NeverReady s) :
    measBody c s =
      { consume (s.params.maxPolls + 1) s with
        ck := .low
        dt := .rel
        ack := some (!oracle s 0)
        crc := some (crcFold (seedOf s.sr) c)
        succ := some false
        tout := some true
        value := some 0
        xstate := .timedOut
        pollcnt := s.params.maxPolls
        trace := s.trace ++ measTimeoutEvents s.params c (oracle s 0) } := by
  have hw := waitReady_never s.params.maxPolls (s := measStart c s) (by rw [measStart_eq]; simp)
    (fun i hi => by
      rw [measStart_eq]
      exact (oracle_after 1 i rfl rfl).trans ((Nat.add_comm 1 i) ▸ hn i hi))
  have hc : consume s.params.maxPolls (consume 1 s) = consume (s.params.maxPolls + 1) s := by
    rw [consume_consume, Nat.add_comm]
  simp only [measBody, hw, measTimeout, Bool.false_eq_true, if_false]
  simp only [measStart_eq]
  simp only [consume, State.mk.injEq, true_and] at hc
  simp only [consume, hc.1, hc.2, measTimeoutEvents, List.append_assoc, Nat.zero_add]

/-- One of the two happens, whatever the device answers. -/
theorem readyAt_or_neverReady (s : State) : (∃ k, ReadyAt s k) ∨ NeverReady s := by
  by_cases h : ∃ j, j < s.params.maxPolls ∧ oracle s (j + 1) = false
  · left
    classical
    refine ⟨Nat.find h + 1, by omega, (Nat.find_spec h).1, fun j hj h1 => ?_, (Nat.find_spec h).2⟩
    have := Nat.find_min h (m := j - 1) (by omega)
    have hlt := (Nat.find_spec h).1
    rw [Nat.sub_add_cancel h1] at this
    simpa [show j - 1 < s.params.maxPolls by omega] using this
  · right
    intro j hj
    by_contra hne
    exact h ⟨j, hj, by simpa using hne⟩

/-- Everything a soft reset can do (R160). -/
theorem softReset_eq (s : State) :
    softReset s =
      { consume 1 s with
        ck := .low
        dt := .rel
        ack := some (!oracle s 0)
        xstate := .idle
        trace := s.trace ++ softResetEvents (oracle s 0) } := by
  simp only [softReset, performAll_creset, performAll_tstart, sendByte_eq, sleep, emit, consume]
  simp only [oracle, softResetEvents, Config.cmdSoftReset, Config.settleMs, List.append_assoc]

/-- Everything an effective `OPEN` can do (R165). -/
theorem openBody_closed {s : State} (h : s.isOpen = false) :
    openBody s =
      { consume 1 s with
        isOpen := true
        ck := .low
        dt := .rel
        ack := some (!oracle s 0)
        xstate := .idle
        trace := s.trace ++ openEvents s.params (oracle s 0) } := by
  simp only [openBody, h, softReset_eq, sleep, emit, configureClock, configureData, consume, Bool.false_eq_true, if_false]
  simp only [oracle, openEvents, Config.powerupMs, List.append_assoc]
  rfl

theorem openBody_open {s : State} (h : s.isOpen = true) : openBody s = s := by
  simp [openBody, h]

theorem closeBody_closed {s : State} (h : s.isOpen = false) : closeBody s = s := by
  simp [closeBody, h]

/-- Everything an effective `CLOSE` can do (R167). -/
theorem closeBody_open {s : State} (h : s.isOpen = true) :
    closeBody s =
      { s with
        isOpen := false
        ck := .off
        dt := .off
        xstate := .idle
        crc := none
        ack := none
        rx := none
        res := none
        value := none
        rxcrc := none
        succ := none
        tout := none
        matched := none
        trace := s.trace ++ [.relLine s.params.clockLine, .relLine s.params.dataLine] } := by
  simp [closeBody, h, releaseClock, releaseData, emit]

end Sys2Proof.Machine
end

