-- ==== Sys2Proof/Laws/Command.lean ====
section
/-! SUPPORT. What accepting or refusing a command does (spec 60_exceptions.md R186, R187), and every command as one body behind those
checks. -/
namespace Sys2Proof.Machine

open Sys2Proof

theorem runCommand_ready {b : Bool} {body : State → State} {s : State} (h : Ready s) :
    runCommand b body s = .next (body (accept s)) := by
  simp [runCommand, h.1, h.2]

theorem runCommand_closed {body : State → State} {s : State} (h : Closed s) :
    runCommand true body s = .next { s with err := .notOpen } := by
  simp [runCommand, h.1, h.2, raiseFault]

theorem runCommand_unguarded {body : State → State} {s : State} (h : s.halted = false) :
    runCommand false body s = .next (body (accept s)) := by
  simp [runCommand, h]

theorem runCommand_halted {b : Bool} {body : State → State} {s : State} (h : s.halted = true) :
    runCommand b body s = .next { s with err := .hardwareFault } := by
  cases s
  simp_all [runCommand, raiseFault]

/-- Everything a command can do, before its body is looked at: one of three cases, and always a next state. -/
theorem runCommand_cases {b : Bool} {body : State → State} {s t : State} (h : runCommand b body s = .next t) :
    (s.halted = true ∧ t = { s with err := .hardwareFault }) ∨
      (s.halted = false ∧ s.isOpen = false ∧ b = true ∧ t = { s with err := .notOpen }) ∨
      (s.halted = false ∧ (b = true → s.isOpen = true) ∧ t = body (accept s)) := by
  by_cases hh : s.halted = true
  · rw [runCommand_halted hh] at h
    exact .inl ⟨hh, (Host.Outcome.next.inj h).symm⟩
  · have hh : s.halted = false := by simpa using hh
    by_cases ho : b = true ∧ s.isOpen = false
    · obtain ⟨rfl, ho⟩ := ho
      rw [runCommand_closed ⟨hh, ho⟩] at h
      exact .inr (.inl ⟨hh, ho, rfl, (Host.Outcome.next.inj h).symm⟩)
    · have ho : b = true → s.isOpen = true := by simpa using ho
      have hr : runCommand b body s = .next (body (accept s)) := by
        cases b
        · exact runCommand_unguarded hh
        · exact runCommand_ready ⟨hh, ho rfl⟩
      rw [hr] at h
      exact .inr (.inr ⟨hh, ho, (Host.Outcome.next.inj h).symm⟩)

/-- The body of each command. -/
def commandBody : Instr → State → State
  | .ckh => clockHigh
  | .ckl => clockLow
  | .dlo => dataAssertLow
  | .drl => dataRelease
  | .dly => pause
  | .tstart => performAll tstartPrims
  | .creset => performAll cresetPrims
  | .sendb v => sendByte v
  | .readb a => readBody a
  | .mirr b => mirrBody b
  | .seed => seedCrc
  | .fold b => foldCrc b
  | .check b => checkBody b
  | .meas c => measBody c
  | .srst => softReset
  | .openLines => openBody
  | .closeLines => closeBody

/-- Every command is its body behind the checks of R186. -/
theorem exec_eq (i : Instr) (s : State) : exec i s = runCommand (needsOpen i) (commandBody i) s := by
  cases i <;> rfl

end Sys2Proof.Machine
end

