-- ==== Sys2Proof/Laws/Step.lean ====
section
/-! SUPPORT. What one step can do: nothing without a command, a recorded fault, or one accepted command (spec 60_exceptions.md R186). -/
namespace Sys2Proof.Machine

open Sys2Proof

/-- A command that was accepted always completes. -/
theorem exec_next (i : Instr) (s : State) : ∃ t, exec i s = .next t := by
  rw [exec_eq, runCommand]
  split
  · exact ⟨_, rfl⟩
  · split <;> exact ⟨_, rfl⟩

/-- Everything a step can do. -/
theorem step_cases {s t : State} (h : step s = .next t) :
    t = s ∨ t = { s with err := .hardwareFault } ∧ s.halted = true ∨
      t = { s with err := .illegalCommand, index := s.index + 1 } ∧ s.halted = false ∧ s.index < s.program.length ∨
      ∃ i u, exec i s = .next u ∧ t = advance u ∧ s.halted = false ∧ s.index < s.program.length := by
  rcases hw : s.program[s.index]? with _ | w
  · simp only [step, performNext, nextCommand, hw] at h
    exact .inl (Host.Outcome.next.inj h).symm
  · have hlt : s.index < s.program.length := (List.getElem?_eq_some_iff.mp hw).1
    by_cases hh : s.halted = true
    · have hr : step s = .next { s with err := .hardwareFault } := by
        cases s
        simp_all [step, performNext, nextCommand, hostWrite, runWord, raiseFault, advanceOutcome, advance]
      exact .inr (.inl ⟨(Host.Outcome.next.inj (hr.symm.trans h)).symm, hh⟩)
    · have hh : s.halted = false := by simpa using hh
      simp only [step, performNext, nextCommand, hw, hostWrite, runWord, hh, Bool.false_eq_true, if_false] at h
      rcases hd : decode w with i | r
      · obtain ⟨u, hu⟩ := exec_next i s
        simp only [hd, hu, advanceOutcome] at h
        exact .inr (.inr (.inr ⟨i, u, hu, (Host.Outcome.next.inj h).symm, hh, hlt⟩))
      · simp only [hd, raiseFault, advanceOutcome, advance, hh, Bool.false_eq_true, if_false] at h
        exact .inr (.inr (.inl ⟨by rw [← Host.Outcome.next.inj h, hh], hh, hlt⟩))

end Sys2Proof.Machine
end

