-- ==== Sys2Proof/Laws/HostPort.lean ====
section
/-! SUPPORT. Small laws of the host's side: what a placed word is, and that reads touch nothing but the count of free draws. -/
namespace Sys2Proof.Machine

open Sys2Proof

/-- The placed word stands at its place. -/
theorem placeWord_getElem? (w : Word) (n : Nat) (ws : List Word) : (placeWord w n ws)[n]? = some w := by
  induction n generalizing ws with
  | zero => cases ws <;> rfl
  | succ n ih => cases ws <;> exact ih _

/-- Every other place the list had keeps its word. -/
theorem placeWord_getElem?_ne (w : Word) {n m : Nat} (ws : List Word) (hm : m < ws.length) (hne : m ≠ n) :
    (placeWord w n ws)[m]? = ws[m]? := by
  induction n generalizing ws m with
  | zero =>
    rcases ws with _ | ⟨v, rest⟩
    · exact absurd hm (by simp)
    · rcases m with _ | m
      · exact absurd rfl hne
      · rfl
  | succ n ih =>
    rcases ws with _ | ⟨v, rest⟩
    · exact absurd hm (by simp)
    · rcases m with _ | m
      · rfl
      · exact ih rest (by simpa using hm) (by omega)

theorem nextCommand_withFetchWord (s : State) (nbits w : Nat) : nextCommand (s.withFetchWord nbits w) = some (tableWord nbits w) :=
  placeWord_getElem? ..

theorem readByteReg_state (r : Option Byte) (s : State) :
    (readByteReg r s).2 = { s with draws := (readByteReg r s).2.draws } := by
  cases r <;> rfl

theorem readFlag_state (r : Option Bool) (s : State) : (readFlag r s).2 = { s with draws := (readFlag r s).2.draws } := by
  cases r <;> rfl

theorem readWordReg_state (r : Option Word) (s : State) :
    (readWordReg r s).2 = { s with draws := (readWordReg r s).2.draws } := by
  cases r <;> rfl

end Sys2Proof.Machine
end

