-- ==== Sys2Proof/Laws/PerInstr.lean ====
section
/-! SUPPORT. The family stated per instruction: every command's encoding passes the checks of spec 30_encoding.md R74. -/
namespace Sys2Proof.Laws.EncodesWellFormed

open Sys2Proof

/-- The fields of the command's word pass all four checks of R74. -/
def Statement (i : Instr) : Prop := (fieldsOf (encode i)).wellFormed = true

theorem ckh : Statement .ckh := by unfold Statement; decide
theorem ckl : Statement .ckl := by unfold Statement; decide
theorem dlo : Statement .dlo := by unfold Statement; decide
theorem drl : Statement .drl := by unfold Statement; decide
theorem dly : Statement .dly := by unfold Statement; decide
theorem tstart : Statement .tstart := by unfold Statement; decide
theorem creset : Statement .creset := by unfold Statement; decide
theorem sendb (v : Byte) : Statement (.sendb v) := by unfold Statement; revert v; decide +kernel
theorem readb (a : Bool) : Statement (.readb a) := by unfold Statement; revert a; decide
theorem mirr (b : Byte) : Statement (.mirr b) := by unfold Statement; revert b; decide +kernel
theorem seed : Statement .seed := by unfold Statement; decide
theorem fold (b : Byte) : Statement (.fold b) := by unfold Statement; revert b; decide +kernel
theorem check (b : Byte) : Statement (.check b) := by unfold Statement; revert b; decide +kernel
theorem meas (c : Byte) : Statement (.meas c) := by unfold Statement; revert c; decide +kernel
theorem srst : Statement .srst := by unfold Statement; decide
theorem openLines : Statement .openLines := by unfold Statement; decide
theorem closeLines : Statement .closeLines := by unfold Statement; decide

end Sys2Proof.Laws.EncodesWellFormed
end

