-- ==== Sys2Proof/Tests/Slice0.lean ====
section
/-! SUPPORT. Tests: the expected values are those spec 95_test_vectors.md (V2 to V15), or the rule named, prints; and for every statement with
hypotheses a state that meets them. -/
namespace Sys2Proof.Tests

open Sys2Proof Sys2Proof.Machine

/-- One view of the state a command leaves, if it leaves one. -/
def after {α : Type} (o : Host.Outcome State Fault Refusal) (view : State → α) : Option α :=
  match o with
  | .next t => some (view t)
  | .fault _ => none
  | .refused _ => none

/-- The start state of the vectors, the state after an effective `OPEN` (95_test_vectors.md, conventions), with an empty trace and the
given device stream. -/
def opened (device : List Bool) : State :=
  { State.reset with isOpen := true, ck := .low, dt := .rel, device := device }

/-- The same with another `MAX_POLLS`. -/
def openedPolls (n : Nat) (device : List Bool) : State := { opened device with params := { Params.default with maxPolls := n } }

/-! ### Well-formedness: an ill-formed word for each check of R74 -/

theorem test_group_refused : (fieldsOf 0x6000).groupOk = false ∧ (fieldsOf 0x6000).wellFormed = false := by decide
theorem test_function_refused : (fieldsOf 0x1500).functionOk = false ∧ (fieldsOf 0x1500).wellFormed = false := by decide
theorem test_operand_refused : (fieldsOf 0x1401).noOperandOk = false ∧ (fieldsOf 0x1401).wellFormed = false := by decide
theorem test_readb_bits_refused : (fieldsOf 0x3102).readbOk = false ∧ (fieldsOf 0x3102).wellFormed = false := by decide

/-! ### Decoding: the word of each command, bit by bit as R72 prints it -/

theorem test_decode_ckh : decode 0b0001_0000_00000000 = .command .ckh := by decide
theorem test_decode_ckl : decode 0b0001_0001_00000000 = .command .ckl := by decide
theorem test_decode_dlo : decode 0b0001_0010_00000000 = .command .dlo := by decide
theorem test_decode_drl : decode 0b0001_0011_00000000 = .command .drl := by decide
theorem test_decode_dly : decode 0b0001_0100_00000000 = .command .dly := by decide
theorem test_decode_tstart : decode 0b0010_0000_00000000 = .command .tstart := by decide
theorem test_decode_creset : decode 0b0010_0001_00000000 = .command .creset := by decide
theorem test_decode_sendb : decode 0b0011_0000_00011110 = .command (.sendb 0x1E) := by decide
theorem test_decode_readb_ack : decode 0b0011_0001_00000001 = .command (.readb true) := by decide
theorem test_decode_readb_noack : decode 0b0011_0001_00000000 = .command (.readb false) := by decide
theorem test_decode_mirr : decode 0b0100_0000_00010010 = .command (.mirr 0x12) := by decide
theorem test_decode_seed : decode 0b0100_0001_00000000 = .command .seed := by decide
theorem test_decode_fold : decode 0b0100_0010_00011110 = .command (.fold 0x1E) := by decide
theorem test_decode_check : decode 0b0100_0011_00000110 = .command (.check 0x06) := by decide
theorem test_decode_meas : decode 0b0101_0000_00000101 = .command (.meas 0x05) := by decide
theorem test_decode_srst : decode 0b0101_0001_00000000 = .command .srst := by decide
theorem test_decode_open : decode 0b0101_0010_00000000 = .command .openLines := by decide
theorem test_decode_close : decode 0b0101_0011_00000000 = .command .closeLines := by decide

/-- Words of V14 that are illegal, each under its name. -/
theorem test_decode_illegal :
    [0x1500, 0x2200, 0x3200, 0x4400, 0x5400].map decode = List.replicate 5 (.illegal .reservedFunction) ∧
      [0x0000, 0xFFFF, 0x6000].map decode = List.replicate 3 (.illegal .reservedGroup) ∧
      [0x1401, 0x4101, 0x5301].map decode = List.replicate 3 (.illegal .operandNotZero) ∧
      [0x3102, 0x31FF].map decode = List.replicate 2 (.illegal .readAckReservedBits) := by decide

theorem test_table_word : decodeTableWord 16 0x421E = some (.fold 0x1E) ∧ decodeTableWord 16 0x3102 = none := by decide

/-- V14's words encode back. -/
theorem test_encode : [Instr.dly, .creset, .sendb 0xFF, .readb true, .fold 0x1E, .meas 0x1E, .closeLines].map encode =
    [0x1400, 0x2100, 0x30FF, 0x3101, 0x421E, 0x501E, 0x5300] := by decide

/-! ### The pure functions (V2 to V7) -/

theorem test_mirror : [0x01, 0x0F, 0x31, 0x03, 0xA5, 0x12, 0xD7].map mirror = [0x80, 0xF0, 0x8C, 0xC0, 0xA5, 0x48, 0xEB] := by decide
theorem test_fold : [crcFold 0x00 0x03, crcFold 0x53 0x10, crcFold 0x6E 0x04, crcFold 0xA5 0x5A] = [0x53, 0x6E, 0x60, 0xAC] := by decide
theorem test_fold_basis : ([0x01, 0x02, 0x04, 0x08, 0x10, 0x20, 0x40, 0x80] : List Byte).map (crcFold 0) =
    [0x31, 0x62, 0xC4, 0xB9, 0x43, 0x86, 0x3D, 0x7A] := by decide
theorem test_seed_of : ([0x00, 0x01, 0x08, 0x0F, 0xF0, 0x45, 0xFF] : List Byte).map seedOf =
    [0x00, 0x80, 0x10, 0xF0, 0x00, 0xA0, 0xF0] := by decide
theorem test_status_word : statusWord false .verified false true true true true = 0x008F ∧
    statusWord false .failed false false false true true = 0x00A3 := by decide

/-! ### The commands -/

/-- V8. -/
theorem test_ckh : after (exec .ckh (opened [])) (fun t => (t.ck, t.dt, t.trace)) = some (.high, .rel, [.ckHigh]) := by decide
/-- V8: the event is appended although the clock is low already. -/
theorem test_ckl : after (exec .ckl (opened [])) (fun t => (t.ck, t.dt, t.trace)) = some (.low, .rel, [.ckLow]) := by decide
/-- V8. -/
theorem test_dlo : after (exec .dlo (opened [])) (fun t => (t.ck, t.dt, t.trace)) = some (.low, .low, [.dtLow]) := by decide
/-- V8. -/
theorem test_drl : after (exec .drl (opened [])) (fun t => (t.ck, t.dt, t.trace)) = some (.low, .rel, [.dtRel]) := by decide
/-- V8. -/
theorem test_dly : after (exec .dly (opened [])) (fun t => (t.ck, t.dt, t.trace)) = some (.low, .rel, [.delay]) := by decide

/-- V8, from another line state. -/
theorem test_tstart : after (exec .tstart { opened [] with ck := .high, dt := .low }) (fun t => (t.ck, t.dt, t.trace)) =
    some (.low, .rel, [.ckHigh, .delay, .dtLow, .delay, .ckLow, .delay, .ckHigh, .delay, .dtRel, .delay, .ckLow, .delay]) := by decide

/-- V8: 9 `CkHigh`, 9 `CkLow`, 1 `DtRel`, 19 `Delay`. -/
theorem test_creset : after (exec .creset (opened [])) (fun t =>
      (t.ck, t.dt, [t.trace.count .ckHigh, t.trace.count .ckLow, t.trace.count .dtRel, t.trace.count .delay, t.trace.length])) =
    some (.low, .rel, [9, 9, 1, 19, 38]) := by decide

/-- V9a: the data primitives of `SENDB 0x03`, acknowledged. -/
theorem test_sendb_acked : after (exec (.sendb 0x03) (opened [false])) (fun t =>
      (t.ack, t.trace.filter (fun e => e == .dtLow || e == .dtRel || isSample e), t.trace.length)) =
    some (some true, [.dtLow, .dtLow, .dtLow, .dtLow, .dtLow, .dtLow, .dtRel, .dtRel, .dtRel, .sample false], 71) := by decide

/-- V9a: the data primitives of `SENDB 0xA5`, not acknowledged. -/
theorem test_sendb_unacked : after (exec (.sendb 0xA5) (opened [true])) (fun t =>
      (t.ack, t.trace.filter (fun e => e == .dtLow || e == .dtRel || isSample e), t.trace.length)) =
    some (some false, [.dtRel, .dtLow, .dtRel, .dtLow, .dtLow, .dtRel, .dtLow, .dtRel, .dtRel, .sample true], 71) := by decide

/-- V9a: `READB ACK` with the device presenting `bits(10)`, the first five events of it. -/
theorem test_readb_ack : after (exec (.readb true) (opened [false, false, false, true, false, false, false, false])) (fun t =>
      (t.rx, t.dt, t.trace.take 5, t.trace.length)) =
    some (some 0x10, .rel, [.ckHigh, .delay, .sample false, .ckLow, .delay], 48) := by decide

/-- V9a: a line held low reads 0 and uses no answer; `NOACK` leaves it low. -/
theorem test_readb_held_low : after (exec (.readb false) { opened [true] with dt := .low }) (fun t =>
    (t.rx, t.dt, t.device, t.trace.length)) = some (some 0x00, .low, [true], 40) := by decide

/-- V2. -/
theorem test_mirr : after (exec (.mirr 0x12) (opened [])) (fun t => (t.res, t.crc, t.trace)) = some (some 0x48, none, []) := by decide
/-- V6. -/
theorem test_seed : after (exec .seed { opened [] with crc := some 0x60 }) (fun t => (t.crc, t.trace)) = some (some 0x00, []) := by decide
/-- P4: `FOLD 0xA2` on `CRC` = A2 gives 00. -/
theorem test_fold_self : after (exec (.fold 0xA2) { opened [] with crc := some 0xA2 }) (fun t => t.crc) = some (some 0x00) := by decide
/-- P4's variant: an unwritten `CRC` does not stop `FOLD`, which leaves it written. -/
theorem test_fold_unwritten : after (exec (.fold 0x05) (opened [])) (fun t => (t.crc.isSome, t.err)) = some (true, .noFault) := by decide
/-- V7: on `CRC` = 60, `CHECK 0x06` matches. -/
theorem test_check_equal : after (exec (.check 0x06) { opened [] with crc := some 0x60 }) (fun t => (t.matched, t.crc)) =
    some (some true, some 0x60) := by decide
/-- V7: on `CRC` = 60, `CHECK 0x60` does not match; that is no fault. -/
theorem test_check_unequal : after (exec (.check 0x60) { opened [] with crc := some 0x60 }) (fun t => (t.matched, t.err)) =
    some (some false, .noFault) := by decide

/-- V10 (a): the device stream of the temperature exchange. -/
def v10a : List Bool :=
  [false] ++ [false] ++ [false, false, false, true, false, false, false, false] ++
    [false, false, false, false, false, true, false, false] ++ [false, false, false, false, false, true, true, false]

/-- V10 (a). -/
theorem test_meas_verified :
    after (exec (.meas 0x03) (opened v10a)) (fun t => (t.crc, t.rx, t.rxcrc, t.value)) =
        some (some 0x60, some 0x06, some 0x06, some 0x1004) ∧
      after (exec (.meas 0x03) (opened v10a)) (fun t => (t.succ, t.tout, t.matched, t.ack)) =
        some (some true, some false, some true, some true) ∧
      after (exec (.meas 0x03) (opened v10a)) (fun t => (t.pollcnt, t.xstate, t.trace.length)) = some (1, .verified, 221) := by
  decide +kernel

/-- V12 with `MAX_POLLS` = 3. -/
theorem test_meas_timeout :
    after (exec (.meas 0x03) (openedPolls 3 [true, true, true, true])) (fun t => (t.crc, t.rx, t.value, t.matched)) =
        some (some 0x53, none, some 0x0000, none) ∧
      after (exec (.meas 0x03) (openedPolls 3 [true, true, true, true])) (fun t => (t.succ, t.tout, t.ack)) =
        some (some false, some true, some false) ∧
      after (exec (.meas 0x03) (openedPolls 3 [true, true, true, true])) (fun t => (t.pollcnt, t.xstate, t.trace.length)) =
        some (3, .timedOut, 89) := by
  decide +kernel

/-- V9: the counts of the reset scenario, and where its sample stands. -/
theorem test_srst : after (exec .srst (opened [false])) (fun t =>
      (t.ack, [t.trace.count .delay, t.trace.count .ckLow, t.trace.count .ckHigh, t.trace.count .dtRel, t.trace.count .dtLow,
        t.trace.length], t.trace[118]?, t.trace[121]?)) =
    some (some true, [60, 28, 20, 7, 5, 122], some (.sample false), some (.sleepMs 11)) := by decide +kernel

/-- V13, step 2. -/
theorem test_open :
    after (exec .openLines { State.reset with device := [false] }) (fun t => (t.isOpen, t.ack, t.ck, t.dt, t.crc)) =
        some (true, some true, .low, .rel, none) ∧
      after (exec .openLines { State.reset with device := [false] }) (fun t => (t.trace.take 4, t.trace.length)) =
        some ([.cfgOutLow 0, .cfgOutLow 1, .sleepMs 20, .dtRel], 125) := by decide +kernel

/-- V13, step 3. -/
theorem test_open_again : after (exec .openLines (opened [false])) (fun t => (t.trace, t.device)) = some ([], [false]) := by decide

/-- V13, step 4. -/
theorem test_close : after (exec .closeLines { opened [] with ack := some true }) (fun t =>
    (t.isOpen, t.ck, t.dt, t.ack, t.trace)) = some (false, .off, .off, none, [.relLine 0, .relLine 1]) := by decide

/-- V13, step 1: closing a closed block is no fault. -/
theorem test_close_closed : after (exec .closeLines State.reset) (fun t => (t.err, t.trace)) = some (.noFault, []) := by decide

/-! ### Faults (V15) and the host's side -/

theorem test_not_open : after (step (State.reset.withFetchWord 16 0x5003)) (fun t => (t.err, t.xstate, t.pollcnt, t.succ, t.index)) =
    some (.notOpen, .idle, 0, none, 1) := by decide
theorem test_illegal_before_not_open : after (step (State.reset.withFetchWord 16 0x3102)) (fun t => (t.err, t.index)) =
    some (.illegalCommand, 1) := by decide
theorem test_step_opens : after (step ({ State.reset with device := [true] }.withFetchWord 16 0x5200)) (fun t =>
    (t.isOpen, t.ack, t.trace.length, t.index)) = some (true, some false, 125, 1) := by decide +kernel
/-- V10 (a): the host reads `STATUS` = 0x008F. -/
theorem test_read_status : (match hostRead 1 { opened [] with
      ack := some true, matched := some true, succ := some true, tout := some false, xstate := .verified } with
    | .ok (w, _) => some w
    | .error _ => none) = some 0x008F := by decide
/-- R30. -/
theorem test_absent_register : hostWrite 10 0 State.reset = .refused (.noSuchHostRegister 10) := rfl

/-! ### The assembler (R77, R79, V9) -/

theorem test_assemble : assemble
    [ ['O', 'P', 'E', 'N'],
      ['S', 'E', 'N', 'D', 'B', ' ', '0', 'x', '1', 'E'],
      ['S', 'E', 'N', 'D', 'B', ' ', '3', '0', ' ', ';', ' ', 'd'],
      [';', 'x'],
      ['R', 'E', 'A', 'D', 'B', ' ', 'N', 'O', 'A', 'C', 'K'],
      ['M', 'E', 'A', 'S', 'A', 'L', 'L'] ] = some [0x5200, 0x301E, 0x301E, 0x3100, 0x5003, 0x5005] := by decide +kernel
theorem test_assemble_refused : assembleLine ['S', 'E', 'E', 'D', ' ', '1'] = none ∧
    assembleLine ['F', 'O', 'L', 'D', ' ', '2', '5', '6'] = none ∧ assembleLine ['R', 'E', 'A', 'D', 'B', ' ', '1'] = none := by
  decide +kernel

/-! ### A witness for the hypotheses of each statement -/

theorem witness_StepRunsDecodedCommand :
    let s := State.reset.withFetchWord 16 0x1000
    s.program[s.index]? = some 0x1000 ∧ s.halted = false ∧ decode 0x1000 = .command .ckh := by decide
theorem witness_ReservedWordRaisesIllegalCommand :
    let s := State.reset.withFetchWord 16 0x3102
    s.program[s.index]? = some 0x3102 ∧ s.halted = false ∧ (fieldsOf 0x3102).wellFormed = false := by decide
theorem witness_ClosedBlockRaisesNotOpen :
    Instr.dly ≠ .openLines ∧ Instr.dly ≠ .closeLines ∧ State.reset.halted = false ∧ State.reset.isOpen = false := by decide
theorem witness_HaltedBlockRefusesEverything :
    let s := { State.reset.withFetchWord 16 0x5200 with halted := true }
    s.halted = true ∧ s.program[s.index]? = some 0x5200 := by decide
/-- A word of each outcome of `FaultPriority`: a fault recorded by each of the three checks. -/
theorem witness_FaultPriority :
    after (hostWrite 0 0x5300 { State.reset with halted := true }) (fun t => t.err) = some .hardwareFault ∧
      after (hostWrite 0 0x3102 State.reset) (fun t => t.err) = some .illegalCommand ∧
      after (hostWrite 0 0x1400 State.reset) (fun t => t.err) = some .notOpen := by decide
theorem witness_IdleWithoutCommand : State.reset.program[State.reset.index]? = none := by decide

/-- The premises `Ready` and `Closed` of the command statements: `ClockHighCommand` to `CloseCommand`, `SequencesAreTheirPrimitives`,
`MeasureTakesEveryByte`, `MeasureHasThreeOutcomes`, `MeasureForgetsOldChecksum`, `MeasureAllRunsBoth`, `AcknowledgmentDoesNotSteer`,
`ResetState` (its last clause), `ExchangeStatePhases`, `NominalDurations` and `CompositeEventCounts` (with the poll premises below). -/
theorem witness_Ready : Ready (opened []) := by decide
theorem witness_Closed : Closed State.reset := by decide

/-- The premises of the encoding clauses: an operand that is not 0, and for `READB` not 1 either, at both ends. -/
theorem witness_operands : (0x01 : Byte) ≠ 0 ∧ (0xFF : Byte) ≠ 0 ∧ (0x02 : Byte) ≠ 0 ∧ (0x02 : Byte) ≠ 1 ∧ (0xFF : Byte) ≠ 1 := by decide

theorem witness_SampleResolvesTheDataLine : { opened [] with dt := .low }.dt = .low ∧ (opened []).dt ≠ .low ∧ State.reset.dt ≠ .low := by
  decide
theorem witness_DataCommands : after (exec .dlo (opened [])) (fun _ => ()) = some () ∧ after (exec .drl (opened [])) (fun _ => ()) = some () := by
  decide
theorem witness_ReadByteCommand_released : Ready (opened []) ∧ (opened []).dt ≠ .low := by decide
theorem witness_ReadByteCommand_held : Ready { opened [] with dt := .low } ∧ { opened [] with dt := .low }.dt = .low := by decide
theorem witness_MirrorReversesBits : 0 < 8 ∧ 7 < 8 := by decide
theorem witness_SeedCommand : Ready (opened []) ∧ (opened []).sr = 0 := by decide
theorem witness_FoldCommand_written : Ready { opened [] with crc := some 0x53 } ∧ { opened [] with crc := some 0x53 }.crc = some 0x53 := by decide
theorem witness_FoldCommand_unwritten : Ready (opened []) ∧ (opened []).crc = none := by decide
theorem witness_CheckCommand_written : Ready { opened [] with crc := some 0x60 } ∧ { opened [] with crc := some 0x60 }.crc = some 0x60 := by decide
theorem witness_CheckCommand_unwritten : Ready (opened []) ∧ (opened []).crc = none := by decide

/-- Ready at the first poll allowed. -/
theorem witness_MeasureReadyExchange_first : Ready (opened v10a) ∧ ReadyAt (opened v10a) 1 := by decide +kernel
/-- Ready at the last poll allowed. -/
theorem witness_MeasureReadyExchange_last :
    Ready (openedPolls 3 [false, true, true, false]) ∧ ReadyAt (openedPolls 3 [false, true, true, false]) 3 := by decide +kernel
theorem witness_MeasureTimeout : Ready (openedPolls 3 [true, true, true, true]) ∧ NeverReady (openedPolls 3 [true, true, true, true]) := by
  decide +kernel
/-- The boundary: no poll is allowed at all. -/
theorem witness_MeasureTimeout_no_poll : Ready (openedPolls 0 []) ∧ NeverReady (openedPolls 0 []) := by decide +kernel
theorem witness_StuckLineNeverVerifies_low :
    let s := opened ([false, false] ++ List.replicate 24 false)
    s.sr = 0 ∧ Ready s ∧ ReadyAt s 1 ∧ ∀ j < 24, oracle s (1 + 1 + j) = false := by decide +kernel
theorem witness_StuckLineNeverVerifies_high :
    let s := opened ([false, false] ++ List.replicate 24 true)
    s.sr = 0 ∧ Ready s ∧ ReadyAt s 1 ∧ ∀ j < 24, oracle s (1 + 1 + j) = true := by decide +kernel

/-- An open state meets the invariant. -/
theorem witness_CloseReturnsToReset : RunInv (opened []) ∧ (opened []).isOpen = true :=
  ⟨by constructor <;> decide, rfl⟩
/-- A state with a command to run meets the invariant, and its step has a next state. -/
theorem witness_StepKeepsInvariant :
    RunInv ((opened []).withFetchWord 16 0x1000) ∧ after (step ((opened []).withFetchWord 16 0x1000)) (fun t => t.ck) = some .high :=
  ⟨by constructor <;> decide, by decide⟩
/-- Witness of `StepKeepsConfiguration` and `StepOnlyAppendsToTrace`: a step with a next state that appends events. -/
theorem witness_Steps : after (step ((opened [false]).withFetchWord 16 0x30FF)) (fun t => t.trace.length) = some 71 := by decide +kernel
/-- Witness of `ResultRegistersHaveTheirWriters`: commands with a next state that change `RES`, `RX`, `CRC`, `MATCH`, `ACK`. -/
theorem witness_ResultRegisters :
    after (exec (.mirr 1) (opened [])) (fun t => t.res) = some (some 0x80) ∧
      after (exec (.readb false) { opened [] with dt := .low }) (fun t => t.rx) = some (some 0) ∧
      after (exec .seed (opened [])) (fun t => t.crc) = some (some 0) ∧
      after (exec (.check 0) { opened [] with crc := some 0 }) (fun t => t.matched) = some (some true) ∧
      after (exec (.sendb 0) (opened [true])) (fun t => t.ack) = some (some false) := by decide +kernel
/-- The same for `VALUE`, `RXCRC`, `SUCC`, `TOUT` and `POLLCNT`. -/
theorem witness_ResultRegisters_meas : after (exec (.meas 0x03) (opened v10a)) (fun t =>
    (t.value, t.rxcrc, t.succ, t.tout, t.pollcnt)) = some (some 0x1004, some 0x06, some true, some false, 1) := by decide +kernel
theorem witness_LifecycleHasItsWriters : after (exec .closeLines { opened [] with xstate := .verified }) (fun t =>
    (t.isOpen, t.xstate, t.halted)) = some (false, .idle, false) := by decide
theorem witness_ChecksumCommandsTouchNoLine : after (exec (.fold 1) { opened [] with crc := some 0 }) (fun t => t.crc) =
    some (some 0x31) := by decide
theorem witness_EncodingIsUnique : decode 0x3101 = .command (.readb true) := by decide
theorem witness_LegalWordsPassTheChecks : (fieldsOf 0xFFFF).wellFormed = false ∧ (fieldsOf 0x50FF).wellFormed = true := by decide
/-- One of the durations on a concrete state: `TSTART` takes 6 microseconds at the default `T_DELAY`. -/
theorem witness_NominalDurations : Ready (opened []) ∧ Closed State.reset ∧
    after (exec .tstart (opened [])) (fun t => nominalMicros t.params t.trace) = some 6 := by decide
theorem witness_StatusLayout :
    let s := { opened [] with ack := some true, matched := some false, succ := some true, tout := some false }
    s.ack = some true ∧ s.matched = some false ∧ s.succ = some true ∧ s.tout = some false := by decide
theorem witness_HostRegisterMap :
    let s := { opened [] with crc := some 1, res := some 2, rx := some 3, value := some 4, rxcrc := some 5 }
    s.crc = some 1 ∧ s.res = some 2 ∧ s.rx = some 3 ∧ s.value = some 4 ∧ s.rxcrc = some 5 ∧ 0 ≤ 9 ∧ 1 ≤ 9 ∧ 9 ≤ 9 ∧ 10 ≤ 10 ∧
      2 ∈ [2, 3, 4, 5, 6, 8] ∧ 8 ∈ [2, 3, 4, 5, 6, 8] := by decide
/-- A host read of an unwritten register answers (U2). -/
theorem witness_HostRegisterMap_unwritten : State.reset.rx = none ∧
    (match hostRead 6 State.reset with | .ok _ => true | .error _ => false) = true := by decide
theorem witness_CommandPortRunsCommand : decode 0x5300 = .command .closeLines ∧ State.reset.halted = false := by decide

end Sys2Proof.Tests
end

/-! Proofs of the statements of spec 00_scope.md. -/
namespace Sys2Proof.Machine

open Sys2Proof

/-- Everything an accepted `CLOSE` does on an open block (R167, R187). -/
theorem exec_closeLines_ready {s : State} (h : Ready s) :
    exec .closeLines s = .next { s with
      err := .noFault
      isOpen := false
      ck := .off
      dt := .off
      xstate := .idle
      crc := none
      ack := none
      rx := none
      res := none
      value := none
      rxcrc := none
      succ := none
      tout := none
      matched := none
      trace := s.trace ++ [.relLine s.params.clockLine, .relLine s.params.dataLine] } := by
  have hopen : (accept s).isOpen = true := (accept_isOpen s).trans h.2
  rw [exec_eq, runCommand_ready h]
  exact congrArg Host.Outcome.next (closeBody_open hopen)

/-- The result registers an effective `CLOSE` clears are those that hold no value after reset (R32, R167). -/
theorem closeLines_results_eq_powerOn (p : Params) {u : State} (h : Ready u) :
    ∃ t, exec .closeLines u = .next t ∧ t.crc = (State.powerOn p).crc ∧ t.ack = (State.powerOn p).ack ∧
      t.rx = (State.powerOn p).rx ∧ t.res = (State.powerOn p).res ∧ t.value = (State.powerOn p).value ∧
      t.rxcrc = (State.powerOn p).rxcrc ∧ t.succ = (State.powerOn p).succ ∧ t.tout = (State.powerOn p).tout ∧
      t.matched = (State.powerOn p).matched :=
  ⟨_, exec_closeLines_ready h, rfl, rfl, rfl, rfl, rfl, rfl, rfl, rfl, rfl⟩

/-- Settles O41: the reset table is read off `State.powerOn`; the clause about `CLOSE` is `closeLines_results_eq_powerOn`. -/
theorem resetState : Obligations.ResetState := by
  refine ⟨rfl, rfl, rfl, fun p => ?_⟩
  exact ⟨rfl, rfl, rfl, rfl, rfl, rfl, rfl, rfl, rfl, rfl, rfl, rfl, rfl, rfl, rfl, rfl, rfl, rfl,
    fun _ hu => closeLines_results_eq_powerOn p hu⟩

end Sys2Proof.Machine

/-! Proofs of the statements of spec 10_state.md. -/
namespace Sys2Proof.Machine

open Sys2Proof

/-! ### What an accepted command can do -/

/-- The commands that are nothing but primitives of the sequencer (spec 40_sequencer_primitives.md, 41_sequences.md). -/
def isLineCommand : Instr → Bool
  | .ckh | .ckl | .dlo | .drl | .dly | .tstart | .creset => true
  | .sendb _ | .readb _ | .mirr _ | .seed | .fold _ | .check _ | .meas _ | .srst | .openLines | .closeLines => false

/-- Everything the body of a command can do to a state, by kind of command: which fields are written, with the values the rules of
10_state.md speak of, and every other field left as it was. `commandBody_effect` ties it to the model. -/
inductive Effect (s : State) : Instr → State → Prop
  | drive (i : Instr) (ck : ClockLine) (dt : DataLine) (es : List Event) : isLineCommand i = true →
      (s.ck ≠ .off → ck ≠ .off) → (s.dt ≠ .off → dt ≠ .off) →
      Effect s i { s with ck := ck, dt := dt, trace := s.trace ++ es }
  | send (v : Byte) (a : Bool) (es : List Event) :
      Effect s (.sendb v) { consume 1 s with ck := .low, dt := .rel, ack := some a, trace := s.trace ++ es }
  | read (a : Bool) (r : Byte) (n : Nat) (es : List Event) :
      Effect s (.readb a)
        { consume n s with ck := .low, dt := dataAfterRead a s.dt, rx := some r, trace := s.trace ++ es }
  | mirr (b : Byte) : Effect s (.mirr b) { s with res := some (mirror b) }
  | seed : Effect s .seed { s with crc := some (seedOf s.sr) }
  | fold (b v : Byte) (d : Nat) : Effect s (.fold b) { s with crc := some v, draws := d }
  | check (b : Byte) (m : Bool) (d : Nat) : Effect s (.check b) { s with matched := some m, draws := d }
  | measured (c : Byte) (k n : Nat) (a m : Bool) (crc r : Byte) (x : Word) (es : List Event) : 1 ≤ k → k ≤ s.params.maxPolls →
      Effect s (.meas c) { consume n s with
        ck := .low
        dt := .rel
        ack := some a
        crc := some crc
        rx := some r
        rxcrc := some r
        matched := some m
        succ := some m
        tout := some false
        value := some x
        xstate := verdict m
        pollcnt := k
        trace := s.trace ++ es }
  | timedOut (c : Byte) (n : Nat) (a : Bool) (crc : Byte) (es : List Event) :
      Effect s (.meas c) { consume n s with
        ck := .low
        dt := .rel
        ack := some a
        crc := some crc
        succ := some false
        tout := some true
        value := some 0
        xstate := .timedOut
        pollcnt := s.params.maxPolls
        trace := s.trace ++ es }
  | reset (a : Bool) (es : List Event) :
      Effect s .srst { consume 1 s with ck := .low, dt := .rel, ack := some a, xstate := .idle, trace := s.trace ++ es }
  | alreadyOpen : s.isOpen = true → Effect s .openLines s
  | opened (a : Bool) (es : List Event) : s.isOpen = false →
      Effect s .openLines { consume 1 s with
        isOpen := true
        ck := .low
        dt := .rel
        ack := some a
        xstate := .idle
        trace := s.trace ++ es }
  | alreadyClosed : s.isOpen = false → Effect s .closeLines s
  | closed (es : List Event) : s.isOpen = true →
      Effect s .closeLines { s with
        isOpen := false
        ck := .off
        dt := .off
        xstate := .idle
        crc := none
        ack := none
        rx := none
        res := none
        value := none
        rxcrc := none
        succ := none
        tout := none
        matched := none
        trace := s.trace ++ es }

theorem primClock_ne_off (p : Prim) {c : ClockLine} (h : c ≠ .off) : primClock c p ≠ .off := by
  cases p <;> simp [primClock, h]

theorem primData_ne_off (p : Prim) {d : DataLine} (h : d ≠ .off) : primData d p ≠ .off := by
  cases p <;> simp [primData, h]

/-- No list of primitives turns a configured line off (R50). -/
theorem foldl_primClock_ne_off (ps : List Prim) {c : ClockLine} (h : c ≠ .off) : ps.foldl primClock c ≠ .off := by
  induction ps generalizing c with
  | nil => exact h
  | cons p ps ih => exact ih (primClock_ne_off p h)

theorem foldl_primData_ne_off (ps : List Prim) {d : DataLine} (h : d ≠ .off) : ps.foldl primData d ≠ .off := by
  induction ps generalizing d with
  | nil => exact h
  | cons p ps ih => exact ih (primData_ne_off p h)

/-- A list of primitives as the body of a sequencer command. -/
theorem effect_performAll {i : Instr} (hi : isLineCommand i = true) (ps : List Prim) (s : State) :
    Effect s i (performAll ps s) := by
  rw [performAll_eq]
  exact .drive i _ _ _ hi (foldl_primClock_ne_off ps) (foldl_primData_ne_off ps)

theorem effect_sendByte (v : Byte) (s : State) : Effect s (.sendb v) (sendByte v s) := by
  rw [sendByte_eq]
  exact .send ..

theorem effect_readBody (a : Bool) (s : State) : Effect s (.readb a) (readBody a s) := by
  by_cases h : s.dt = .low
  · have he := Effect.read (s := s) a 0 0 (readEvents a 0)
    rw [consume_zero, h] at he
    simpa only [readBody, readByte_low a h] using he
  · simpa only [readBody, readByte_device a h] using Effect.read a (answerByte s 0) 8 _

theorem effect_foldCrc (b : Byte) (s : State) : Effect s (.fold b) (foldCrc b s) := by
  rcases h : s.crc with _ | v
  · exact foldCrc_unwritten h b ▸ .fold ..
  · exact foldCrc_written h b ▸ .fold b _ s.draws

theorem effect_checkBody (b : Byte) (s : State) : Effect s (.check b) (checkBody b s) := by
  rcases h : s.crc with _ | v
  · simpa only [checkBody, checkCrc_unwritten h] using Effect.check ..
  · simpa only [checkBody, checkCrc_written h] using Effect.check b _ s.draws

theorem effect_measBody (c : Byte) (s : State) : Effect s (.meas c) (measBody c s) := by
  rcases readyAt_or_neverReady s with ⟨k, hk⟩ | hn
  · rw [measBody_ready c hk]
    exact .measured c k _ _ _ _ _ _ _ hk.1 hk.2.1
  · rw [measBody_timeout c hn]
    exact .timedOut ..

theorem effect_softReset (s : State) : Effect s .srst (softReset s) := by
  rw [softReset_eq]
  exact .reset ..

theorem effect_openBody (s : State) : Effect s .openLines (openBody s) := by
  rcases h : s.isOpen with _ | _
  · rw [openBody_closed h]
    exact .opened _ _ h
  · rw [openBody_open h]
    exact .alreadyOpen h

theorem effect_closeBody (s : State) : Effect s .closeLines (closeBody s) := by
  rcases h : s.isOpen with _ | _
  · rw [closeBody_closed h]
    exact .alreadyClosed h
  · rw [closeBody_open h]
    exact .closed _ h

/-- The body of every command does what `Effect` says. -/
theorem commandBody_effect (i : Instr) (s : State) : Effect s i (commandBody i s) :=
  match i with
  | .ckh => effect_performAll rfl [.clockHigh] s
  | .ckl => effect_performAll rfl [.clockLow] s
  | .dlo => effect_performAll rfl [.dataAssertLow] s
  | .drl => effect_performAll rfl [.dataRelease] s
  | .dly => effect_performAll rfl [.delay] s
  | .tstart => effect_performAll rfl tstartPrims s
  | .creset => effect_performAll rfl cresetPrims s
  | .sendb v => effect_sendByte v s
  | .readb a => effect_readBody a s
  | .mirr b => .mirr b
  | .seed => .seed
  | .fold b => effect_foldCrc b s
  | .check b => effect_checkBody b s
  | .meas c => effect_measBody c s
  | .srst => effect_softReset s
  | .openLines => effect_openBody s
  | .closeLines => effect_closeBody s

/-- Everything a command can do: record that the block is halted or closed, or be accepted and run its body (R186, R187). -/
theorem exec_cases {i : Instr} {s t : State} (h : exec i s = .next t) :
    (s.halted = true ∧ t = { s with err := .hardwareFault }) ∨
      (s.halted = false ∧ s.isOpen = false ∧ needsOpen i = true ∧ t = { s with err := .notOpen }) ∨
      (s.halted = false ∧ (needsOpen i = true → s.isOpen = true) ∧ Effect (accept s) i t) := by
  rw [exec_eq] at h
  rcases runCommand_cases h with hh | hc | ⟨hh, ho, rfl⟩
  · exact .inl hh
  · exact .inr (.inl hc)
  · exact .inr (.inr ⟨hh, ho, commandBody_effect i (accept s)⟩)

/-! ### What no command writes, and what it only extends -/

theorem needsOpen_of_isLineCommand {i : Instr} (h : isLineCommand i = true) : needsOpen i = true := by
  cases i with
  | ckh | ckl | dlo | drl | dly | tstart | creset => rfl
  | sendb | readb | mirr | seed | fold | check | meas | srst | openLines | closeLines => exact absurd h Bool.false_ne_true

theorem Effect.config {i : Instr} {s u : State} (h : Effect s i u) :
    u.sr = s.sr ∧ u.params = s.params ∧ u.program = s.program ∧ u.index = s.index := by
  cases h <;> exact ⟨rfl, rfl, rfl, rfl⟩

theorem Effect.err {i : Instr} {s u : State} (h : Effect s i u) : u.err = s.err := by
  cases h <;> rfl

theorem Effect.halted {i : Instr} {s u : State} (h : Effect s i u) : u.halted = s.halted := by
  cases h <;> rfl

/-- The observation grows at its end and the device's answers are used from the front (R28, R46, R51). -/
def Observes (s t : State) : Prop := (∃ es, t.trace = s.trace ++ es) ∧ ∃ n, t.device = s.device.drop n

theorem Observes.of_eq {s t : State} (ht : t.trace = s.trace) (hd : t.device = s.device) : Observes s t :=
  ⟨⟨[], by rw [ht, List.append_nil]⟩, 0, hd⟩

theorem Effect.observes {i : Instr} {s u : State} (h : Effect s i u) : Observes s u := by
  cases h with
  | mirr | seed | fold | check | alreadyOpen | alreadyClosed => exact .of_eq rfl rfl
  | drive | closed => exact ⟨⟨_, rfl⟩, 0, rfl⟩
  | send | read | measured | timedOut | reset | opened => exact ⟨⟨_, rfl⟩, _, rfl⟩

/-- Everything a step can do: nothing, or record a fault, or one accepted command; the index moves past the command unless the
block is halted (R12, R186, R187). -/
theorem step_effect {s t : State} (h : step s = .next t) :
    t = s ∨ (s.halted = true ∧ t = { s with err := .hardwareFault }) ∨
      (s.halted = false ∧ s.index < s.program.length ∧
        ((∃ e, e ≠ .hardwareFault ∧ t = { s with err := e, index := s.index + 1 }) ∨
          ∃ i u, (needsOpen i = true → s.isOpen = true) ∧ Effect (accept s) i u ∧ t = { u with index := s.index + 1 })) := by
  rcases step_cases h with rfl | ⟨rfl, hh⟩ | ⟨rfl, hh, hlt⟩ | ⟨i, u, hu, rfl, hh, hlt⟩
  · exact .inl rfl
  · exact .inr (.inl ⟨hh, rfl⟩)
  · exact .inr (.inr ⟨hh, hlt, .inl ⟨_, by decide, rfl⟩⟩)
  · rcases exec_cases hu with ⟨hh', -⟩ | ⟨-, -, -, rfl⟩ | ⟨-, ho, he⟩
    · exact absurd (hh.symm.trans hh') (by decide)
    · exact .inr (.inr ⟨hh, hlt, .inl ⟨.notOpen, by decide, by simp [advance, hh]⟩⟩)
    · have hu : u.halted = false := he.halted.trans hh
      obtain ⟨-, -, -, hi⟩ := he.config
      exact .inr (.inr ⟨hh, hlt, .inr ⟨i, u, ho, he, by simp [advance, hu, hi]⟩⟩)

/-- Settles O44: the commands keep them (`Effect.config`), and so do the index's move and a recorded fault. -/
theorem stepKeepsConfiguration : Obligations.StepKeepsConfiguration := by
  intro s t h
  rcases step_effect h with rfl | ⟨-, rfl⟩ | ⟨-, -, ⟨e, -, rfl⟩ | ⟨i, u, -, he, rfl⟩⟩
  · exact ⟨rfl, rfl, rfl⟩
  · exact ⟨rfl, rfl, rfl⟩
  · exact ⟨rfl, rfl, rfl⟩
  · obtain ⟨hsr, hparams, hprogram, -⟩ := he.config
    exact ⟨hsr, hparams, hprogram⟩

/-- Settles O45: the commands only extend the observation (`Effect.observes`); a fault and the index's move leave it alone. -/
theorem stepOnlyAppendsToTrace : Obligations.StepOnlyAppendsToTrace := by
  intro s t h
  rcases step_effect h with rfl | ⟨-, rfl⟩ | ⟨-, -, ⟨e, -, rfl⟩ | ⟨i, u, -, he, rfl⟩⟩
  · exact Observes.of_eq rfl rfl
  · exact Observes.of_eq rfl rfl
  · exact Observes.of_eq rfl rfl
  · exact he.observes

/-! ### The invariant -/

/-- `ERR` and the index stand under no clause of the invariant but their own. -/
theorem RunInv.record {s : State} (h : RunInv s) {e : ErrCode} (he : e ≠ .hardwareFault) {n : Nat} (hn : n ≤ s.program.length) :
    RunInv { s with err := e, index := n } :=
  { h with noHardwareFault := he, indexInProgram := hn }

/-- What the invariant says of the exchange state, the outcome flags, the value and the count of polls (R23, R26, R140, R156). -/
structure OutcomeInv (s : State) : Prop where
  atRest : s.xstate = .idle ∨ s.xstate = .verified ∨ s.xstate = .failed ∨ s.xstate = .timedOut
  outcomeLegal : ¬ (s.succ = some true ∧ s.tout = some true)
  verifiedOutcome : s.xstate = .verified → s.succ = some true ∧ s.tout = some false ∧ 1 ≤ s.pollcnt
  failedOutcome : s.xstate = .failed → s.succ = some false ∧ s.tout = some false ∧ 1 ≤ s.pollcnt
  timedOutOutcome : s.xstate = .timedOut → s.succ = some false ∧ s.tout = some true ∧ s.value = some 0 ∧
    s.pollcnt = s.params.maxPolls
  pollsBounded : s.pollcnt ≤ s.params.maxPolls

theorem RunInv.outcome {s : State} (h : RunInv s) : OutcomeInv s := { h with }

/-- An idle exchange state claims nothing of the flags but that they are legal. -/
theorem OutcomeInv.of_idle {s : State} (hx : s.xstate = .idle) (hl : ¬ (s.succ = some true ∧ s.tout = some true))
    (hp : s.pollcnt ≤ s.params.maxPolls) : OutcomeInv s where
  atRest := .inl hx
  outcomeLegal := hl
  verifiedOutcome := by simp [hx]
  failedOutcome := by simp [hx]
  timedOutOutcome := by simp [hx]
  pollsBounded := hp

/-- A verification leaves both flags in agreement with the exchange state, whatever the comparison gave (R155). -/
theorem OutcomeInv.of_verdict {s : State} (m : Bool) (hx : s.xstate = verdict m) (hs : s.succ = some m) (ht : s.tout = some false)
    (h1 : 1 ≤ s.pollcnt) (hp : s.pollcnt ≤ s.params.maxPolls) : OutcomeInv s where
  atRest := by cases m <;> simp [hx, verdict]
  outcomeLegal := by simp [ht]
  verifiedOutcome := by cases m <;> simp [hx, hs, ht, h1, verdict]
  failedOutcome := by cases m <;> simp [hx, hs, ht, h1, verdict]
  timedOutOutcome := by cases m <;> simp [hx, verdict]
  pollsBounded := hp

/-- A timeout leaves them so too (R156). -/
theorem OutcomeInv.of_timeout {s : State} (hx : s.xstate = .timedOut) (hs : s.succ = some false) (ht : s.tout = some true)
    (hv : s.value = some 0) (hp : s.pollcnt = s.params.maxPolls) : OutcomeInv s where
  atRest := .inr (.inr (.inr hx))
  outcomeLegal := by simp [hs]
  verifiedOutcome := by simp [hx]
  failedOutcome := by simp [hx]
  timedOutOutcome := fun _ => ⟨hs, ht, hv, hp⟩
  pollsBounded := hp.le

/-- What a command leaves of the invariant where it leaves the block open: the clauses about a closed block say nothing then. -/
theorem RunInv.of_open {i : Instr} {s u : State} (h : RunInv s) (he : Effect s i u) (hu : u.isOpen = true)
    (hck : u.ck ≠ .off) (hdt : u.dt ≠ .off) (ho : OutcomeInv u) : RunInv u := by
  obtain ⟨hsr, -, hprogram, hindex⟩ := he.config
  exact { ho with
    srZero := hsr.trans h.srZero
    notHalted := he.halted.trans h.notHalted
    noHardwareFault := he.err ▸ h.noHardwareFault
    closedLinesOff := by simp [hu]
    openLinesDriven := fun _ => ⟨hck, hdt⟩
    closedForgets := by simp [hu]
    closedIdle := by simp [hu]
    indexInProgram := by rw [hprogram, hindex]; exact h.indexInProgram }

theorem dataAfterRead_ne_off {a : Bool} {d : DataLine} (h : d ≠ .off) : dataAfterRead a d ≠ .off := by
  cases a <;> simp [dataAfterRead, h]

/-- Every accepted command keeps the invariant. -/
theorem RunInv.effect {i : Instr} {s u : State} (h : RunInv s) (hopen : needsOpen i = true → s.isOpen = true)
    (he : Effect s i u) : RunInv u := by
  have keep := h.of_open he
  cases he with
  | drive _ ck dt es hi hck hdt =>
    have ho : s.isOpen = true := hopen (needsOpen_of_isLineCommand hi)
    obtain ⟨hc, hd⟩ := h.openLinesDriven ho
    exact keep ho (hck hc) (hdt hd) { h.outcome with }
  | send => exact keep (hopen rfl) (by simp) (by simp) { h.outcome with }
  | read a =>
    obtain ⟨-, hd⟩ := h.openLinesDriven (hopen rfl)
    exact keep (hopen rfl) (by simp) (dataAfterRead_ne_off hd) { h.outcome with }
  | mirr | seed | fold | check =>
    obtain ⟨hc, hd⟩ := h.openLinesDriven (hopen rfl)
    exact keep (hopen rfl) hc hd { h.outcome with }
  | measured c k n a m crc r x es h1 hk =>
    exact keep (hopen rfl) (by simp) (by simp) (.of_verdict m rfl rfl rfl h1 hk)
  | timedOut => exact keep (hopen rfl) (by simp) (by simp) (.of_timeout rfl rfl rfl rfl rfl)
  | reset => exact keep (hopen rfl) (by simp) (by simp) (.of_idle rfl h.outcomeLegal h.pollsBounded)
  | opened => exact keep rfl (by simp) (by simp) (.of_idle rfl h.outcomeLegal h.pollsBounded)
  | alreadyOpen | alreadyClosed => exact h
  | closed es =>
    exact { h with
      closedLinesOff := fun _ => ⟨rfl, rfl⟩
      openLinesDriven := by simp
      closedForgets := fun _ => ⟨rfl, rfl, rfl, rfl, rfl, rfl, rfl, rfl, rfl⟩
      closedIdle := fun _ => rfl
      atRest := .inl rfl
      outcomeLegal := by simp
      verifiedOutcome := by simp
      failedOutcome := by simp
      timedOutOutcome := by simp }

/-- Settles O43: a step does nothing, records a fault other than code 3, or runs an accepted command (`RunInv.effect`). -/
theorem stepKeepsInvariant : Obligations.StepKeepsInvariant := by
  intro s t h hs
  rcases step_effect hs with rfl | ⟨hh, -⟩ | ⟨-, hlt, ⟨e, hne, rfl⟩ | ⟨i, u, hopen, he, rfl⟩⟩
  · exact h
  · exact absurd (h.notHalted.symm.trans hh) (by decide)
  · exact h.record hne hlt
  · have haccept : RunInv (accept s) := h.record (e := .noFault) (by decide) h.indexInProgram
    have hu : RunInv u := haccept.effect hopen he
    obtain ⟨-, -, hprogram, -⟩ := he.config
    exact hu.record hu.noHardwareFault (hprogram ▸ hlt)

/-- Settles O42: every clause about `SR`, `HALTED`, the lines and the results is read off `State.powerOn`. -/
theorem resetMeetsInvariant : Obligations.ResetMeetsInvariant := by
  have hreset (p : Params) : RunInv (State.powerOn p) :=
    { OutcomeInv.of_idle (s := State.powerOn p) rfl (by simp [State.powerOn]) (Nat.zero_le _) with
      srZero := rfl
      notHalted := rfl
      noHardwareFault := by simp [State.powerOn]
      closedLinesOff := fun _ => ⟨rfl, rfl⟩
      openLinesDriven := by simp [State.powerOn]
      closedForgets := fun _ => ⟨rfl, rfl, rfl, rfl, rfl, rfl, rfl, rfl, rfl⟩
      closedIdle := fun _ => rfl
      indexInProgram := Nat.zero_le _ }
  exact ⟨hreset Params.default, hreset⟩

/-! ### The step -/

theorem runWord_halted {s : State} (h : s.halted = true) (w : Word) : runWord w s = .next { s with err := .hardwareFault } := by
  simp [runWord, raiseFault, h]

theorem runWord_command {s : State} {w : Word} {i : Instr} (hh : s.halted = false) (hd : decode w = .command i) :
    runWord w s = exec i s := by
  simp [runWord, hh, hd]

theorem step_of_nextWord {s : State} {w : Word} (h : s.program[s.index]? = some w) : step s = advanceOutcome (runWord w s) := by
  simp [step, performNext, nextCommand, h, hostWrite]

/-- Settles O1. -/
theorem stepRunsDecodedCommand : Obligations.StepRunsDecodedCommand := by
  intro s w i hw hh hd
  rw [step_of_nextWord hw, runWord_command hh hd]
  rcases exec i s with t | r | r <;> rfl

/-- Settles O5: R186 checks `HALTED` first, for a word as for a command. -/
theorem haltedBlockRefusesEverything : Obligations.HaltedBlockRefusesEverything := by
  intro s hh
  refine ⟨fun i => ?_, fun w hw => ?_⟩
  · rw [exec_eq, runCommand_halted hh]
  · rw [step_of_nextWord hw, runWord_halted hh]
    simp [advanceOutcome, advance, hh]

/-- A block that is ready accepts every command. -/
theorem exec_ready (i : Instr) {s : State} (h : Ready s) : ∃ t, exec i s = .next t ∧ Effect (accept s) i t :=
  ⟨_, (exec_eq i s).trans (runCommand_ready h), commandBody_effect i (accept s)⟩

/-- Settles O29: the two ways an exchange can end (`Effect`), the verification in each of its two verdicts. -/
theorem measureHasThreeOutcomes : Obligations.MeasureHasThreeOutcomes := by
  intro c s hs
  obtain ⟨t, ht, he⟩ := exec_ready (.meas c) hs
  refine ⟨t, ht, he.err, ?_⟩
  cases he with
  | drive _ _ _ _ hi => exact absurd hi Bool.false_ne_true
  | measured _ k n a m crc r x es h1 hk =>
    refine ⟨hk, ?_⟩
    rcases m with _ | _
    · exact .inr (.inl ⟨rfl, rfl, rfl, rfl, h1⟩)
    · exact .inl ⟨rfl, rfl, rfl, rfl, h1⟩
  | timedOut => exact ⟨le_rfl, .inr (.inr ⟨rfl, rfl, rfl, rfl, rfl⟩)⟩

/-! ### Which command writes which field -/

/-- A command is refused, which changes `ERR` alone, or has the effect of its body. -/
theorem exec_refused_or_effect {i : Instr} {s t : State} (h : exec i s = .next t) :
    (∃ e, t = { s with err := e }) ∨ Effect (accept s) i t := by
  rcases exec_cases h with ⟨-, ht⟩ | ⟨-, -, -, ht⟩ | ⟨-, -, he⟩
  · exact .inl ⟨_, ht⟩
  · exact .inl ⟨_, ht⟩
  · exact .inr he

/-- Settles O46: a refusal writes no result register, and `Effect` names, command by command, the registers a body writes. -/
theorem resultRegistersHaveTheirWriters : Obligations.ResultRegistersHaveTheirWriters := by
  intro i s t h
  rcases exec_refused_or_effect h with ⟨e, rfl⟩ | he
  · simp
  · cases he <;> simp

/-- Settles O47: as for the result registers; no body writes `HALTED` (`Effect.halted`), and neither does a refusal. -/
theorem lifecycleHasItsWriters : Obligations.LifecycleHasItsWriters := by
  intro i s t h
  rcases exec_refused_or_effect h with ⟨e, rfl⟩ | he
  · simp
  · refine ⟨?_, ?_, he.halted⟩ <;> cases he <;> simp

/-- Settles O48: the effects of the four commands name neither the lines nor the observation nor the device's answers. -/
theorem checksumCommandsTouchNoLine : Obligations.ChecksumCommandsTouchNoLine := by
  intro i s t hi h
  have hline : isLineCommand i = false := by rcases hi with rfl | ⟨b, rfl⟩ | ⟨b, rfl⟩ | ⟨b, rfl⟩ <;> rfl
  rcases exec_refused_or_effect h with ⟨e, rfl⟩ | he
  · exact ⟨rfl, rfl, rfl, rfl⟩
  · cases he with
    | seed | mirr | fold | check => exact ⟨rfl, rfl, rfl, rfl⟩
    | drive _ _ _ _ hd => exact absurd (hline.symm.trans hd) Bool.false_ne_true
    | send | read | measured | timedOut | reset | alreadyOpen | opened | alreadyClosed | closed => simp at hi

/-! ### The host's registers -/

theorem readFlag_value {r : Option Bool} {v : Bool} (h : r = some v) (s : State) : (readFlag r s).1 = v := by
  rw [h]; rfl

theorem readStatus_state (s : State) : (readStatus s).2 = { s with draws := (readStatus s).2.draws } := by
  simp only [readStatus]
  rw [readFlag_state s.tout, readFlag_state s.succ, readFlag_state s.matched, readFlag_state s.ack]

/-- The fields of the host's flags word at their bits (R24). -/
theorem statusWord_fields (halted : Bool) (x : XState) (tout succ matched ack isOpen : Bool) :
    let w := statusWord halted x tout succ matched ack isOpen
    w.getLsbD 0 = isOpen ∧ w.getLsbD 1 = ack ∧ w.getLsbD 2 = matched ∧ w.getLsbD 3 = succ ∧ w.getLsbD 4 = tout ∧
      w.extractLsb' 5 3 = x.code ∧ w.getLsbD 8 = halted ∧ w.extractLsb' 9 7 = 0 := by
  revert halted tout succ matched ack isOpen
  cases x <;> decide

/-- Settles O56: `readStatus` puts what `readFlag` gives, the value of a written flag, into the fields of `statusWord_fields`. -/
theorem statusLayout : Obligations.StatusLayout := by
  refine ⟨fun s w => rfl, fun s => ?_, rfl, rfl, rfl, rfl, rfl, rfl, rfl⟩
  obtain ⟨hopen, hack, hmatched, hsucc, htout, hx, hhalted, hzero⟩ := statusWord_fields s.halted s.xstate _ _ _ _ s.isOpen
  exact ⟨_, _, rfl, readStatus_state s, hopen, fun v h => hack.trans (readFlag_value h _),
    fun v h => hmatched.trans (readFlag_value h _), fun v h => hsucc.trans (readFlag_value h _),
    fun v h => htout.trans (readFlag_value h _), hx, hhalted, hzero⟩

theorem readNarrow_written {r : Option Byte} {v : Byte} (h : r = some v) (s : State) :
    readNarrow r s = (v.zeroExtend 16, s) := by
  rw [h]; rfl

theorem readWordReg_written {r : Option Word} {v : Word} (h : r = some v) (s : State) : readWordReg r s = (v, s) := by
  rw [h]; rfl

/-- What an 8-bit register reads as has its high byte 0, written or not. -/
theorem zeroExtend_high_byte (v : Byte) : (v.zeroExtend 16).extractLsb' 8 8 = 0 := by
  apply BitVec.eq_of_getLsbD_eq
  intro i hi
  simp [BitVec.getLsbD_setWidth]

/-- `ERR` reads as its two bits alone (R25). -/
theorem errCode_high_bits (e : ErrCode) :
    (e.code.zeroExtend 16).extractLsb' 8 8 = 0 ∧ (e.code.zeroExtend 16).extractLsb' 2 14 = 0 := by
  cases e <;> decide

/-- A read changes nothing but the count of free draws (R30, U2). -/
theorem hostRead_state {n : Nat} {s t : State} {w : Word} (h : hostRead n s = .ok (w, t)) : t = { s with draws := t.draws } :=
  match n, h with
  | 0, h | 2, h | 4, h | 9, h => by cases h; rfl
  | 1, h => by cases h; exact readStatus_state s
  | 3, h | 5, h | 6, h | 8, h => by cases h; exact readByteReg_state _ s
  | 7, h => by
    have ht : (readWordReg s.value s).2 = t := congrArg Prod.snd (Except.ok.inj h)
    exact ht ▸ readWordReg_state s.value s
  | n + 10, h => by cases h

/-- Each of the ten registers answers, a narrow one with its upper bits 0 (R30). -/
theorem hostRead_answers {n : Nat} (hn : n ≤ 9) (s : State) : ∃ w t, hostRead n s = .ok (w, t) ∧
    (n ∈ [2, 3, 4, 5, 6, 8] → w.extractLsb' 8 8 = 0) ∧ (n = 2 → w.extractLsb' 2 14 = 0) :=
  match n with
  | 0 | 1 | 7 | 9 => ⟨_, _, rfl, by simp, by simp⟩
  | 2 => ⟨_, _, rfl, fun _ => (errCode_high_bits s.err).1, fun _ => (errCode_high_bits s.err).2⟩
  | 3 | 4 | 5 | 6 | 8 => ⟨_, _, rfl, fun _ => zeroExtend_high_byte _, by simp⟩
  | n + 10 => absurd hn (by omega)

theorem hostWrite_readOnly {n : Nat} (h1 : 1 ≤ n) (h9 : n ≤ 9) (w : Word) (s : State) : hostWrite n w s = .next s := by
  obtain ⟨m, rfl⟩ := Nat.exists_eq_add_of_le' h1
  simp [hostWrite, h9]

/-- There is no register 10 or above (R30). -/
theorem hostAccess_refused {n : Nat} (hn : 10 ≤ n) (w : Word) (s : State) :
    hostRead n s = .error (.noSuchHostRegister n) ∧ hostWrite n w s = .refused (.noSuchHostRegister n) := by
  obtain ⟨m, rfl⟩ := Nat.exists_eq_add_of_le' hn
  exact ⟨rfl, by simp [hostWrite]⟩

/-- Settles O57, register by register. -/
theorem hostRegisterMap : Obligations.HostRegisterMap := by
  refine ⟨fun s => ?_, fun n s hn => hostRead_answers hn s, ⟨rfl, rfl, rfl, rfl⟩, fun n s w t => hostRead_state,
    fun n s w h1 h9 => hostWrite_readOnly h1 h9 w s, fun n s w hn => hostAccess_refused hn w s⟩
  exact ⟨rfl, rfl, fun v h => congrArg Except.ok (readNarrow_written h s), rfl,
    fun v h => congrArg Except.ok (readNarrow_written h s), fun v h => congrArg Except.ok (readNarrow_written h s),
    fun v h => congrArg Except.ok (readWordReg_written h s), fun v h => congrArg Except.ok (readNarrow_written h s), rfl⟩

end Sys2Proof.Machine

/-! Proofs of the statements of spec 20_memory.md. -/
namespace Sys2Proof.Machine

open Sys2Proof

theorem runWord_illegal {s : State} {w : Word} {why : IllegalWord} (hh : s.halted = false) (hd : decode w = .illegal why) :
    runWord w s = .next { s with err := .illegalCommand } := by
  simp [runWord, raiseFault, hh, hd]

theorem step_of_noWord {s : State} (h : s.program[s.index]? = none) : step s = .next s := by
  simp [step, performNext, nextCommand, h]

/-- Every word written to `CMD` has a next state: the block's own faults are recorded, not raised (R187), and no command waits for
the device without a bound (R51, R153). -/
theorem runWord_next (w : Word) (s : State) : ∃ t, runWord w s = .next t := by
  rcases hh : s.halted with _ | _
  · rcases hd : decode w with i | why
    · rw [runWord_command hh hd]
      exact exec_next i s
    · exact ⟨_, runWord_illegal hh hd⟩
  · exact ⟨_, runWord_halted hh w⟩

/-- Settles O7: a step is idle, or it runs a word (`runWord_next`) and moves the index. -/
theorem everyStepHasANext : Obligations.EveryStepHasANext := by
  intro s
  rcases hw : s.program[s.index]? with _ | w
  · exact ⟨s, step_of_noWord hw⟩
  · obtain ⟨t, ht⟩ := runWord_next w s
    exact ⟨advance t, (step_of_nextWord hw).trans (congrArg advanceOutcome ht)⟩

end Sys2Proof.Machine

/-! Proofs of the statements of spec 30_encoding.md. -/
namespace Sys2Proof.Machine

open Sys2Proof

/-! ### Command words and their fields (R70) -/

@[simp] theorem fieldsOf_commandWord (g f : BitVec 4) (v : Byte) : fieldsOf (commandWord g f v) = ⟨g, f, v⟩ := by
  have hg : (commandWord g f v).extractLsb' 12 4 = g := by
    rw [commandWord, BitVec.extractLsb'_append_eq_of_le (by decide)]
    exact BitVec.extractLsb'_append_eq_left
  have hf : (commandWord g f v).extractLsb' 8 4 = f := by
    rw [commandWord, BitVec.extractLsb'_append_eq_of_le (by decide)]
    exact BitVec.extractLsb'_append_eq_right
  have hv : (commandWord g f v).extractLsb' 0 8 = v := BitVec.extractLsb'_append_eq_right
  rw [fieldsOf, hg, hf, hv]

/-- A word is the command word of its three fields. -/
theorem commandWord_fieldsOf (w : Word) : commandWord (fieldsOf w).grp (fieldsOf w).fn (fieldsOf w).imm = w := by
  have hhigh : w.extractLsb' 12 4 ++ w.extractLsb' 8 4 = w.extractLsb' 8 8 :=
    BitVec.extractLsb'_append_extractLsb'_eq_extractLsb' rfl
  have hword : w.extractLsb' 8 8 ++ w.extractLsb' 0 8 = w.extractLsb' 0 16 :=
    BitVec.extractLsb'_append_extractLsb'_eq_extractLsb' rfl
  rw [commandWord, fieldsOf, hhigh, hword, BitVec.extractLsb'_eq_self]

theorem commandWord_inj {g g' f f' : BitVec 4} {v v' : Byte} :
    commandWord g f v = commandWord g' f' v' ↔ g = g' ∧ f = f' ∧ v = v' := by
  constructor
  · intro h
    simpa using congrArg fieldsOf h
  · rintro ⟨rfl, rfl, rfl⟩
    rfl

theorem commandWord_and (g g' f f' : BitVec 4) (v v' : Byte) :
    commandWord g f v &&& commandWord g' f' v' = commandWord (g &&& g') (f &&& f') (v &&& v') := by
  exact BitVec.and_append.trans (congrArg (· ++ (v &&& v')) BitVec.and_append)

/-! ### The rows of the opcode map (R72, R73) -/

/-- The row selects a word exactly when the word is the encoding of the command it builds from the word's operand. -/
def SelectsEncodings (r : OpcodeRow) : Prop :=
  ∀ w : Word, rowMatches w r = true ↔ w = encode (r.build (fieldsOf w).imm)

/-- A row that fixes `GRP`, `FN` and the bits `m` of the operand: it is enough that the operand of the built command agrees with
these bits. -/
theorem selectsEncodings_of_operand (g f : BitVec 4) (m : Byte) {build : Byte → Instr} (operand : Byte → Byte)
    (hencode : ∀ v, encode (build v) = commandWord g f (operand v)) (hmask : ∀ v, v &&& m = 0 ↔ v = operand v) :
    SelectsEncodings ⟨commandWord 0xF 0xF m, commandWord g f 0, build⟩ := by
  intro w
  obtain ⟨g', f', v, rfl⟩ : ∃ g' f' v, w = commandWord g' f' v := ⟨_, _, _, (commandWord_fieldsOf w).symm⟩
  have hones (n : BitVec 4) : n &&& 0xF = n := BitVec.and_allOnes
  simp only [rowMatches, beq_iff_eq, commandWord_and, fieldsOf_commandWord, hencode, commandWord_inj, hones, hmask]

theorem selectsEncodings_noOperand (g f : BitVec 4) {i : Instr} (h : encode i = commandWord g f 0) :
    SelectsEncodings ⟨commandWord 0xF 0xF 0xFF, commandWord g f 0, fun _ => i⟩ :=
  have hones (v : Byte) : v &&& 0xFF = v := BitVec.and_allOnes
  selectsEncodings_of_operand g f 0xFF (fun _ => 0) (fun _ => h) (fun v => by rw [hones])

theorem selectsEncodings_byte (g f : BitVec 4) {build : Byte → Instr} (h : ∀ v, encode (build v) = commandWord g f v) :
    SelectsEncodings ⟨commandWord 0xF 0xF 0, commandWord g f 0, build⟩ :=
  selectsEncodings_of_operand g f 0 id h (fun _ => ⟨fun _ => rfl, fun _ => BitVec.and_zero⟩)

/-- The only bytes with bits 7 to 1 clear are 0 and 1, so such a byte is its bit 0 (R71). -/
theorem and_high_bits_eq_zero_iff (v : Byte) : v &&& 0xFE = 0 ↔ v = if v.getLsbD 0 then 1 else 0 := by
  revert v
  decide +kernel

theorem selectsEncodings_readb :
    SelectsEncodings ⟨commandWord 0xF 0xF 0xFE, commandWord 3 1 0, fun v => .readb (v.getLsbD 0)⟩ :=
  selectsEncodings_of_operand 3 1 0xFE (fun v => if v.getLsbD 0 then 1 else 0) (fun _ => rfl) and_high_bits_eq_zero_iff

theorem opcodeRows_selectEncodings : ∀ r ∈ opcodeRows, SelectsEncodings r := by
  simp only [opcodeRows, List.cons_append, List.nil_append, List.forall_mem_cons]
  exact ⟨selectsEncodings_noOperand 1 0 rfl, selectsEncodings_noOperand 1 1 rfl, selectsEncodings_noOperand 1 2 rfl,
    selectsEncodings_noOperand 1 3 rfl, selectsEncodings_noOperand 1 4 rfl, selectsEncodings_noOperand 2 0 rfl,
    selectsEncodings_noOperand 2 1 rfl, selectsEncodings_byte 3 0 fun _ => rfl, selectsEncodings_readb,
    selectsEncodings_byte 4 0 fun _ => rfl, selectsEncodings_noOperand 4 1 rfl, selectsEncodings_byte 4 2 fun _ => rfl,
    selectsEncodings_byte 4 3 fun _ => rfl, selectsEncodings_byte 5 0 fun _ => rfl, selectsEncodings_noOperand 5 1 rfl,
    selectsEncodings_noOperand 5 2 rfl, selectsEncodings_noOperand 5 3 rfl, fun _ h => absurd h List.not_mem_nil⟩

/-- Every command is built by a row, from its own operand. -/
theorem exists_row_of_instr (i : Instr) : ∃ r ∈ opcodeRows, r.build (fieldsOf (encode i)).imm = i := by
  have row (n : Nat) {r : OpcodeRow} (hn : opcodeRows[n]? = some r) (hb : r.build (fieldsOf (encode i)).imm = i) :
      ∃ r ∈ opcodeRows, r.build (fieldsOf (encode i)).imm = i := ⟨r, List.mem_of_getElem? hn, hb⟩
  cases i with
  | ckh => exact row 0 rfl rfl
  | ckl => exact row 1 rfl rfl
  | dlo => exact row 2 rfl rfl
  | drl => exact row 3 rfl rfl
  | dly => exact row 4 rfl rfl
  | tstart => exact row 5 rfl rfl
  | creset => exact row 6 rfl rfl
  | sendb v => exact row 7 rfl (by simp [encode])
  | readb a => cases a <;> exact row 8 rfl rfl
  | mirr b => exact row 9 rfl (by simp [encode])
  | seed => exact row 10 rfl rfl
  | fold b => exact row 11 rfl (by simp [encode])
  | check b => exact row 12 rfl (by simp [encode])
  | meas c => exact row 13 rfl (by simp [encode])
  | srst => exact row 14 rfl rfl
  | openLines => exact row 15 rfl rfl
  | closeLines => exact row 16 rfl rfl

/-- A word that two rows select has the pattern of each on the bits both masks keep. -/
theorem pattern_and_mask_comm {w : Word} {r q : OpcodeRow} (hr : rowMatches w r = true) (hq : rowMatches w q = true) :
    r.pattern &&& q.mask = q.pattern &&& r.mask := by
  rw [← beq_iff_eq.mp hr, ← beq_iff_eq.mp hq, BitVec.and_assoc, BitVec.and_assoc, BitVec.and_comm r.mask]

/-- Settles O51: any two rows differ on a bit that both their masks keep. -/
theorem opcodeRowsAreDisjoint : Obligations.OpcodeRowsAreDisjoint := by
  have hdiffer : opcodeRows.Pairwise fun r q => r.pattern &&& q.mask ≠ q.pattern &&& r.mask := by decide
  exact hdiffer.imp fun hne w ⟨hr, hq⟩ => hne (pattern_and_mask_comm hr hq)

/-! ### The decoder and the encoder -/

/-- The search finds the element that satisfies `p` where no two elements do. -/
theorem find?_eq_some_of_pairwise {α : Type} {p : α → Bool} {l : List α}
    (hl : l.Pairwise fun a b => ¬ (p a = true ∧ p b = true)) {a : α} (ha : a ∈ l) (hp : p a = true) : l.find? p = some a := by
  induction hl with
  | nil => exact absurd ha List.not_mem_nil
  | @cons b l hb _ ih =>
    rcases List.mem_cons.mp ha with rfl | ha
    · exact List.find?_cons_of_pos hp
    · have hpb : ¬ p b = true := fun h => hb a ha ⟨h, hp⟩
      rw [List.find?_cons_of_neg hpb]
      exact ih ha

/-- The decoder answers with the one row that selects the word (R73). -/
theorem decode_of_rowMatches {w : Word} {r : OpcodeRow} (hr : r ∈ opcodeRows) (hw : rowMatches w r = true) :
    decode w = .command (r.build (fieldsOf w).imm) := by
  have hdisjoint : opcodeRows.Pairwise fun r q => ¬ (rowMatches w r = true ∧ rowMatches w q = true) :=
    opcodeRowsAreDisjoint.imp fun h => h w
  rw [decode, find?_eq_some_of_pairwise hdisjoint hr hw]

theorem exists_row_of_decode {w : Word} {i : Instr} (h : decode w = .command i) :
    ∃ r ∈ opcodeRows, rowMatches w r = true ∧ r.build (fieldsOf w).imm = i := by
  rcases hfind : opcodeRows.find? (rowMatches w) with _ | r
  · simp [decode, hfind] at h
  · simp only [decode, hfind, Decoded.command.injEq] at h
    exact ⟨r, List.mem_of_find?_eq_some hfind, List.find?_some hfind, h⟩

/-- Settles O49: the row that builds the command selects its encoding, and no other row does. -/
theorem decodeEncodeRoundTrip : Obligations.DecodeEncodeRoundTrip := by
  intro i
  obtain ⟨r, hr, hi⟩ := exists_row_of_instr i
  have hselects : rowMatches (encode i) r = true := (opcodeRows_selectEncodings r hr (encode i)).mpr (by rw [hi])
  rw [decode_of_rowMatches hr hselects, hi]

/-- Settles O50: the row that decoded the word selects encodings only. -/
theorem encodingIsUnique : Obligations.EncodingIsUnique := by
  intro w i h
  obtain ⟨r, hr, hw, rfl⟩ := exists_row_of_decode h
  exact (opcodeRows_selectEncodings r hr w).mp hw

theorem decode_eq_command_iff {w : Word} {i : Instr} : decode w = .command i ↔ w = encode i :=
  ⟨encodingIsUnique w i, fun h => h ▸ decodeEncodeRoundTrip i⟩

/-! ### The checks of R74 -/

theorem encode_wellFormed (i : Instr) : (fieldsOf (encode i)).wellFormed = true :=
  match i with
  | .ckh => Laws.EncodesWellFormed.ckh
  | .ckl => Laws.EncodesWellFormed.ckl
  | .dlo => Laws.EncodesWellFormed.dlo
  | .drl => Laws.EncodesWellFormed.drl
  | .dly => Laws.EncodesWellFormed.dly
  | .tstart => Laws.EncodesWellFormed.tstart
  | .creset => Laws.EncodesWellFormed.creset
  | .sendb v => Laws.EncodesWellFormed.sendb v
  | .readb a => Laws.EncodesWellFormed.readb a
  | .mirr b => Laws.EncodesWellFormed.mirr b
  | .seed => Laws.EncodesWellFormed.seed
  | .fold b => Laws.EncodesWellFormed.fold b
  | .check b => Laws.EncodesWellFormed.check b
  | .meas c => Laws.EncodesWellFormed.meas c
  | .srst => Laws.EncodesWellFormed.srst
  | .openLines => Laws.EncodesWellFormed.openLines
  | .closeLines => Laws.EncodesWellFormed.closeLines

/-- Fields that pass check 2 name one of the seventeen commands of R72. -/
theorem assigned_of_functionOk (v : Byte) : ∀ g n : BitVec 4, (Fields.mk g n v).functionOk = true →
    (g, n) ∈ [(1#4, 0#4), (1, 1), (1, 2), (1, 3), (1, 4), (2, 0), (2, 1), (3, 0), (3, 1), (4, 0), (4, 1), (4, 2), (4, 3),
      (5, 0), (5, 1), (5, 2), (5, 3)] := by
  change ∀ g n : BitVec 4, (Fields.mk g n 0).functionOk = true → _
  decide

/-- A byte whose bits 7 to 1 are clear is its bit 0. -/
theorem eq_bit_zero_of_high_bits : ∀ v : Byte, v.extractLsb' 1 7 = 0 → v = if v.getLsbD 0 then 1 else 0 := by
  decide +kernel

/-- Fields that pass the checks are those of a command: checks 1 and 2 name it, checks 3 and 4 leave it an operand it has. -/
theorem exists_encode_of_wellFormed {g n : BitVec 4} {v : Byte} (h : (Fields.mk g n v).wellFormed = true) :
    ∃ i, commandWord g n v = encode i := by
  simp only [Fields.wellFormed, Bool.and_eq_true] at h
  obtain ⟨⟨⟨-, hfunction⟩, hoperand⟩, hreadb⟩ := h
  have plain (i : Instr) (hi : encode i = commandWord g n 0) (hbyte : (Fields.mk g n v).takesByte = false)
      (hack : (Fields.mk g n v).isReadb = false) : ∃ i, commandWord g n v = encode i := by
    have hv : v = 0 := by simpa [Fields.noOperandOk, hbyte, hack] using hoperand
    exact ⟨i, by rw [hi, hv]⟩
  have hassigned := assigned_of_functionOk v g n hfunction
  simp only [List.mem_cons, Prod.mk.injEq, List.not_mem_nil, or_false] at hassigned
  rcases hassigned with ⟨rfl, rfl⟩ | ⟨rfl, rfl⟩ | ⟨rfl, rfl⟩ | ⟨rfl, rfl⟩ | ⟨rfl, rfl⟩ | ⟨rfl, rfl⟩ |
      ⟨rfl, rfl⟩ | ⟨rfl, rfl⟩ | ⟨rfl, rfl⟩ | ⟨rfl, rfl⟩ | ⟨rfl, rfl⟩ | ⟨rfl, rfl⟩ |
      ⟨rfl, rfl⟩ | ⟨rfl, rfl⟩ | ⟨rfl, rfl⟩ | ⟨rfl, rfl⟩ | ⟨rfl, rfl⟩
  · exact plain .ckh rfl rfl rfl
  · exact plain .ckl rfl rfl rfl
  · exact plain .dlo rfl rfl rfl
  · exact plain .drl rfl rfl rfl
  · exact plain .dly rfl rfl rfl
  · exact plain .tstart rfl rfl rfl
  · exact plain .creset rfl rfl rfl
  · exact ⟨.sendb v, rfl⟩
  · have hbits : v.extractLsb' 1 7 = 0 := by simpa [Fields.readbOk, Fields.isReadb] using hreadb
    exact ⟨.readb (v.getLsbD 0), congrArg (commandWord 3 1) (eq_bit_zero_of_high_bits v hbits)⟩
  · exact ⟨.mirr v, rfl⟩
  · exact plain .seed rfl rfl rfl
  · exact ⟨.fold v, rfl⟩
  · exact ⟨.check v, rfl⟩
  · exact ⟨.meas v, rfl⟩
  · exact plain .srst rfl rfl rfl
  · exact plain .openLines rfl rfl rfl
  · exact plain .closeLines rfl rfl rfl

/-- Settles O52: both are the words that encode a command. -/
theorem legalWordsPassTheChecks : Obligations.LegalWordsPassTheChecks := by
  intro w
  have hlegal : (∃ i, decode w = .command i) ↔ (fieldsOf w).wellFormed = true := by
    constructor
    · rintro ⟨i, hi⟩
      rw [decode_eq_command_iff.mp hi]
      exact encode_wellFormed i
    · intro hw
      obtain ⟨i, hi⟩ := exists_encode_of_wellFormed hw
      exact ⟨i, decode_eq_command_iff.mpr ((commandWord_fieldsOf w).symm.trans hi)⟩
  refine ⟨hlegal, fun hw => ?_⟩
  rcases hd : decode w with i | why
  · have hok := hlegal.mp ⟨i, hd⟩
    exact absurd (hok.symm.trans hw) (by decide)
  · exact ⟨why, rfl⟩

/-! ### Words of the spec, and the command port -/

theorem wordWith_eq_encode_meas (c : Byte) : wordWith 0x5000 c = encode (.meas c) := by
  have hc : c.zeroExtend 16 = 0#8 ++ c := BitVec.setWidth_eq_append (by decide)
  have hbase : (0x5000 : Word) = (5#4 ++ 0#4) ++ 0#8 := rfl
  rw [wordWith, hc, hbase, BitVec.or_append, BitVec.or_zero, BitVec.zero_or]
  rfl

/-- Settles O28: the word is the encoding of `MEAS` (`wordWith_eq_encode_meas`), and `MEAS` needs an open block. -/
theorem measureTakesEveryByte : Obligations.MeasureTakesEveryByte := by
  refine ⟨fun c => ?_, fun c s hs => ?_⟩
  · rw [wordWith_eq_encode_meas, decodeEncodeRoundTrip]
  · rw [exec_eq]
    exact runCommand_closed hs

/-- Settles O53: a legal word is the encoding of its command; the rejections are computed. -/
theorem decodeVectors : Obligations.DecodeVectors :=
  have hlegal := decodeEncodeRoundTrip
  ⟨hlegal .ckh, hlegal .dly, rfl, hlegal .tstart, rfl, hlegal (.sendb 0xFF), hlegal (.readb true), rfl, hlegal (.fold 0x1E),
    hlegal (.check 0x06), hlegal (.meas 0x03), hlegal .closeLines, rfl, rfl⟩

/-- Settles O54: the expansions and the words are read off the definitions. -/
theorem pseudoInstructionWords : Obligations.PseudoInstructionWords := ⟨rfl, rfl, rfl⟩

/-- Settles O58: register 0 is the command port. -/
theorem commandPortRunsCommand : Obligations.CommandPortRunsCommand :=
  fun _ _ _ hd hh => runWord_command hh hd

/-! ### The assembler (R77) -/

/-- The characters a printed word is made of: no blank, and not the one that starts a comment. -/
def IsWordChar (c : Char) : Prop := c ≠ ' ' ∧ c ≠ '\t' ∧ c ≠ ';'

theorem withoutComment_append {l : List Char} (hl : ∀ c ∈ l, c ≠ ';') (rest : List Char) :
    withoutComment (l ++ rest) = l ++ withoutComment rest := by
  rw [withoutComment, List.takeWhile_append_of_pos (by simpa using hl), withoutComment]

theorem withoutComment_of_forall_ne {l : List Char} (hl : ∀ c ∈ l, c ≠ ';') : withoutComment l = l := by
  simpa [withoutComment] using withoutComment_append hl []

theorem splitWords_word_append {w : List Char} (hw : ∀ c ∈ w, IsWordChar c) (rest cur : List Char) :
    splitWords (w ++ rest) cur = splitWords rest (w.reverse ++ cur) := by
  induction w generalizing cur with
  | nil => rfl
  | cons c w ih =>
    obtain ⟨⟨hspace, htab, -⟩, hw⟩ := List.forall_mem_cons.mp hw
    simp [splitWords, hspace, htab, ih hw]

/-- A blank at the end of a line changes nothing. -/
theorem splitWords_append_blank (l cur : List Char) : splitWords (l ++ [' ']) cur = splitWords l cur := by
  induction l generalizing cur with
  | nil => simp [splitWords]
  | cons c l ih => simp only [List.cons_append, splitWords, ih]

/-- Blanks around a line and a comment after it change nothing (R77). -/
theorem assembleLine_padded {l : List Char} (hl : ∀ c ∈ l, c ≠ ';') (comment : List Char) :
    assembleLine (' ' :: l ++ ' ' :: ';' :: comment) = assembleLine l := by
  have hpadded : withoutComment (' ' :: l ++ ' ' :: ';' :: comment) = ' ' :: (l ++ [' ']) := by
    have h := withoutComment_append (l := ' ' :: l ++ [' ']) (by simpa [or_imp, forall_and] using hl) (';' :: comment)
    simpa [withoutComment] using h
  have hwords : splitWords (' ' :: (l ++ [' '])) [] = splitWords l [] := splitWords_append_blank l []
  rw [assembleLine, hpadded, hwords, assembleLine, withoutComment_of_forall_ne hl]

/-- Two words separated by a blank. -/
theorem splitWords_two {m o : List Char} (hm : ∀ c ∈ m, IsWordChar c) (ho : ∀ c ∈ o, IsWordChar c) (hmne : m ≠ [])
    (hone : o ≠ []) : splitWords (m ++ ' ' :: o) [] = [m, o] := by
  have hlast := splitWords_word_append ho [] []
  rw [List.append_nil] at hlast
  rw [splitWords_word_append hm]
  simp [splitWords, hlast, hmne, hone]

theorem mnemonicText_isWordChar (i : Instr) : ∀ c ∈ mnemonicText i, IsWordChar c := by
  cases i <;> simp [mnemonicText, IsWordChar]

theorem mnemonicText_ne_nil (i : Instr) : mnemonicText i ≠ [] := by
  cases i <;> exact List.cons_ne_nil _ _

theorem ackText_isWordChar (a : Bool) : ∀ c ∈ ackText a, IsWordChar c := by
  cases a <;> simp [ackText, IsWordChar]

theorem hexDigit_isWordChar : ∀ n < 16, IsWordChar (hexDigits.getD n '0') := by
  unfold IsWordChar
  decide +kernel

theorem digitValue_hexDigit : ∀ n < 16, digitValue (hexDigits.getD n '0') = some n := by
  decide +kernel

theorem digitsFrom_hexDigit {n : Nat} (hn : n < 16) (acc : Nat) (rest : List Char) :
    digitsFrom 16 acc (hexDigits.getD n '0' :: rest) = digitsFrom 16 (16 * acc + n) rest := by
  simp only [digitsFrom, digitValue_hexDigit n hn, if_pos hn]

/-- The two digits of a byte. -/
theorem byte_digits_lt (b : Byte) : b.toNat / 16 < 16 ∧ b.toNat % 16 < 16 := by
  have hb := b.isLt
  omega

theorem byteText_isWordChar (b : Byte) : ∀ c ∈ byteText b, IsWordChar c := by
  obtain ⟨hhigh, hlow⟩ := byte_digits_lt b
  have hstart : IsWordChar '0' ∧ IsWordChar 'x' := by unfold IsWordChar; decide
  simp only [byteText, List.forall_mem_cons]
  exact ⟨hstart.1, hstart.2, hexDigit_isWordChar _ hhigh, hexDigit_isWordChar _ hlow, fun _ h => absurd h List.not_mem_nil⟩

/-- The printed form of a byte reads back as the byte: its two digits are its quotient and its rest by 16. -/
theorem parseByte_byteText (b : Byte) : parseByte (byteText b) = some b := by
  obtain ⟨hhigh, hlow⟩ := byte_digits_lt b
  have hb : b.toNat < 256 := b.isLt
  have hnumber : parseNumber 16 [hexDigits.getD (b.toNat / 16) '0', hexDigits.getD (b.toNat % 16) '0'] = some b.toNat := by
    rw [parseNumber, digitsFrom_hexDigit hhigh, digitsFrom_hexDigit hlow, digitsFrom, Nat.mul_zero, Nat.zero_add, Nat.div_add_mod]
  simp only [parseByte, byteText, hnumber, if_pos hb, BitVec.ofNat_toNat, BitVec.setWidth_eq]

theorem assembleLine_byteOperand {m : List Char} (hm : ∀ c ∈ m, IsWordChar c) (hne : m ≠ [])
    (hreadb : m ≠ mnemonicText (.readb true)) (b : Byte) :
    assembleLine (m ++ ' ' :: byteText b) = (byteCommand m b).map fun i => [i] := by
  have hline : ∀ c ∈ m ++ ' ' :: byteText b, c ≠ ';' := by
    simp only [List.forall_mem_append, List.forall_mem_cons]
    exact ⟨fun c hc => (hm c hc).2.2, by decide, fun c hc => (byteText_isWordChar b c hc).2.2⟩
  have hwords := splitWords_two hm (byteText_isWordChar b) hne (List.cons_ne_nil _ _)
  simp only [assembleLine, withoutComment_of_forall_ne hline, hwords, beq_iff_eq, if_neg hreadb, parseByte_byteText]

theorem assembleLine_printLine (i : Instr) : assembleLine (printLine i) = some [i] := by
  have byte (b : Byte) (htext : operandText i = ' ' :: byteText b)
      (hreadb : mnemonicText i ≠ mnemonicText (.readb true)) (hi : byteCommand (mnemonicText i) b = some i) :
      assembleLine (printLine i) = some [i] := by
    rw [printLine, htext, assembleLine_byteOperand (mnemonicText_isWordChar i) (mnemonicText_ne_nil i) hreadb, hi]
    rfl
  cases i with
  | sendb v => exact byte v rfl (by simp [mnemonicText]) rfl
  | mirr b => exact byte b rfl (by simp [mnemonicText]) rfl
  | fold b => exact byte b rfl (by simp [mnemonicText]) rfl
  | check b => exact byte b rfl (by simp [mnemonicText]) rfl
  | meas c => exact byte c rfl (by simp [mnemonicText]) rfl
  | readb a => cases a <;> rfl
  | ckh | ckl | dlo | drl | dly | tstart | creset | seed | srst | openLines | closeLines => rfl

theorem operandText_ne_semicolon (i : Instr) : ∀ c ∈ operandText i, c ≠ ';' := by
  have blank_then {w : List Char} (hw : ∀ c ∈ w, IsWordChar c) : ∀ c ∈ ' ' :: w, c ≠ ';' :=
    List.forall_mem_cons.mpr ⟨by decide, fun c hc => (hw c hc).2.2⟩
  cases i with
  | sendb b | mirr b | fold b | check b | meas b => exact blank_then (byteText_isWordChar b)
  | readb a => exact blank_then (ackText_isWordChar a)
  | ckh | ckl | dlo | drl | dly | tstart | creset | seed | srst | openLines | closeLines =>
    exact fun _ h => absurd h List.not_mem_nil

/-- Settles O55: the words of a printed line are a mnemonic and its operand, and what stands around them is dropped. -/
theorem assemblerReadsPrintedCommands : Obligations.AssemblerReadsPrintedCommands := by
  intro i comment
  have hline : ∀ c ∈ printLine i, c ≠ ';' :=
    List.forall_mem_append.mpr ⟨fun c hc => (mnemonicText_isWordChar i c hc).2.2, operandText_ne_semicolon i⟩
  exact ⟨assembleLine_printLine i, (assembleLine_padded hline comment).trans (assembleLine_printLine i)⟩

end Sys2Proof.Machine

/-! Proofs of the statements of spec 40_sequencer_primitives.md. -/
namespace Sys2Proof.Machine

open Sys2Proof

/-! ### What every command without operand shares (R71, R74, R181) -/

theorem wordWith_commandWord (g f : BitVec 4) (imm : Byte) : wordWith (commandWord g f 0) imm = commandWord g f imm := by
  have himm : imm.zeroExtend 16 = 0#8 ++ imm := BitVec.setWidth_eq_append (by decide)
  rw [wordWith, himm, commandWord, BitVec.or_append, BitVec.or_zero]
  exact congrArg (g ++ f ++ ·) BitVec.zero_or

/-- A word whose fields fail a check of R74 is rejected when the host writes it to `CMD` (R182). -/
theorem raisesIllegal_of_not_wellFormed {w : Word} (hw : (fieldsOf w).wellFormed = false) : RaisesIllegal w := by
  intro s hs
  obtain ⟨why, hd⟩ := (legalWordsPassTheChecks w).2 hw
  exact runWord_illegal hs hd

/-- Check 3 of R74 fails on an operand that is not 0, unless the fields name a command that takes one. -/
theorem not_wellFormed_of_operand {g f : BitVec 4} {imm : Byte} (hbyte : (Fields.mk g f imm).takesByte = false)
    (hreadb : (Fields.mk g f imm).isReadb = false) (himm : imm ≠ 0) : (Fields.mk g f imm).wellFormed = false := by
  have hoperand : (Fields.mk g f imm).noOperandOk = false := by
    simpa [Fields.noOperandOk, hbyte, hreadb] using himm
  simp [Fields.wellFormed, hoperand]

/-- The encoding of a command whose fields take no operand. Whether they do depends on `GRP` and `FN` alone, so both premises hold by
`rfl` for a command of R72. -/
theorem encodedAlone_of_noOperand {g f : BitVec 4} {i : Instr} (hi : encode i = commandWord g f 0)
    (hbyte : ∀ imm, (Fields.mk g f imm).takesByte = false) (hreadb : ∀ imm, (Fields.mk g f imm).isReadb = false) :
    EncodedAlone (commandWord g f 0) i := by
  refine ⟨decode_eq_command_iff.mpr hi.symm, fun imm himm => raisesIllegal_of_not_wellFormed ?_⟩
  rw [wordWith_commandWord, fieldsOf_commandWord]
  exact not_wellFormed_of_operand (hbyte imm) (hreadb imm) himm

theorem refusesClosed_of_needsOpen {i : Instr} (h : needsOpen i = true) : RefusesClosed i := by
  intro s hs
  rw [exec_eq, h]
  exact runCommand_closed hs

/-! ### The five primitives as commands (R90 to R94) -/

/-- The command that performs one primitive. -/
def primCommand : Prim → Instr
  | .clockHigh => .ckh
  | .clockLow => .ckl
  | .dataAssertLow => .dlo
  | .dataRelease => .drl
  | .delay => .dly

theorem commandBody_primCommand (p : Prim) : commandBody (primCommand p) = perform p := by
  cases p <;> rfl

theorem encodedAlone_primCommand (p : Prim) : EncodedAlone (encode (primCommand p)) (primCommand p) := by
  cases p <;> exact encodedAlone_of_noOperand rfl (fun _ => rfl) (fun _ => rfl)

/-- The command of a primitive, once accepted: `ERR` is cleared, and the rest is `perform_eq`. -/
theorem exec_primCommand (p : Prim) {s : State} (h : Ready s) :
    exec (primCommand p) s = .next { s with
      err := .noFault
      ck := primClock s.ck p
      dt := primData s.dt p
      trace := s.trace ++ [primEvent p] } := by
  rw [exec_eq, runCommand_ready h, commandBody_primCommand, perform_eq]
  rfl

/-- Settles O8: `CKH` is the command of the primitive `clockHigh`, so the lemmas about `primCommand` give the three parts. -/
theorem clockHighCommand : Obligations.ClockHighCommand :=
  ⟨encodedAlone_primCommand .clockHigh, refusesClosed_of_needsOpen rfl, fun _ hs => exec_primCommand .clockHigh hs⟩

/-- Settles O9: as O8, with the primitive `clockLow`; `primClock` is low whatever the clock was. -/
theorem clockLowCommand : Obligations.ClockLowCommand :=
  ⟨encodedAlone_primCommand .clockLow, refusesClosed_of_needsOpen rfl, fun _ hs => exec_primCommand .clockLow hs⟩

/-- Settles O10: the block holds the line low, so the sample does not ask the device (`sample_low`). -/
theorem dataAssertLowCommand : Obligations.DataAssertLowCommand := by
  refine ⟨encodedAlone_primCommand .dataAssertLow, refusesClosed_of_needsOpen rfl, fun s hs => ?_⟩
  have hexec := exec_primCommand .dataAssertLow hs
  refine ⟨hexec, fun t ht => ?_⟩
  obtain rfl := Host.Outcome.next.inj (hexec.symm.trans ht)
  rw [sample_low rfl]

/-- Settles O11: the line is released (`sample_device`), and the command has used no answer (`oracle_congr`). -/
theorem dataReleaseCommand : Obligations.DataReleaseCommand := by
  refine ⟨encodedAlone_primCommand .dataRelease, refusesClosed_of_needsOpen rfl, fun s hs => ?_⟩
  have hexec := exec_primCommand .dataRelease hs
  refine ⟨hexec, fun t ht => ?_⟩
  obtain rfl := Host.Outcome.next.inj (hexec.symm.trans ht)
  rw [sample_device (by simp [primData])]
  exact oracle_congr rfl rfl 0

/-- Settles O12: as O8, with the primitive `delay`, which leaves both lines. -/
theorem delayCommand : Obligations.DelayCommand :=
  ⟨encodedAlone_primCommand .delay, refusesClosed_of_needsOpen rfl, fun _ hs => exec_primCommand .delay hs⟩

/-! ### The sample and the GPIO calls (R95, R96) -/

/-- Settles O13: the two cases are `sample_low` and `sample_device`; `emit` writes `TRACE` alone. -/
theorem sampleResolvesTheDataLine : Obligations.SampleResolvesTheDataLine :=
  fun _ => ⟨fun hlow => sample_low hlow, fun hdevice => sample_device hdevice⟩

/-- Settles O59: the calls are read off `gpioCall`, one equation for each event. -/
theorem gpioCallsOfPrimitives : Obligations.GpioCallsOfPrimitives :=
  fun _ _ _ => ⟨rfl, rfl, rfl, rfl, rfl, rfl, rfl⟩

end Sys2Proof.Machine

/-! Proofs of the statements of spec 41_sequences.md. -/
namespace Sys2Proof.Machine

open Sys2Proof

/-! ### Primitives as commands, one after the other (R102) -/

/-- A command that passes the checks of R186 is its body on the accepted state. -/
theorem exec_of_ready (i : Instr) {s : State} (h : Ready s) : exec i s = .next (commandBody i (accept s)) :=
  (exec_eq i s).trans (runCommand_ready h)

theorem runAll_cons_of_next {i : Instr} {s t : State} (h : exec i s = .next t) (rest : List Instr) :
    runAll (i :: rest) s = runAll rest t := by
  simp only [runAll, h]

theorem ready_perform (p : Prim) {s : State} (h : Ready s) : Ready (perform p s) := by
  rw [perform_eq]
  exact h

/-- A primitive leaves `ERR` alone, so the acceptance of the command after it changes nothing (R187). -/
theorem accept_perform_accept (p : Prim) (s : State) : accept (perform p (accept s)) = perform p (accept s) := by
  rw [perform_eq]
  rfl

/-- The commands of at least one primitive are the primitives in order, behind a single acceptance. Without any command `ERR` would
keep its old value. -/
theorem runAll_primCommands (p : Prim) (ps : List Prim) {s : State} (h : Ready s) :
    runAll ((p :: ps).map primCommand) s = .next (performAll (p :: ps) (accept s)) := by
  have hexec {p : Prim} {s : State} (h : Ready s) : exec (primCommand p) s = .next (perform p (accept s)) := by
    rw [exec_of_ready _ h, commandBody_primCommand]
  induction ps generalizing p s with
  | nil => exact runAll_cons_of_next (hexec h) []
  | cons q qs ih =>
    have hready : Ready (perform p (accept s)) := ready_perform p h
    calc runAll ((p :: q :: qs).map primCommand) s
        = runAll ((q :: qs).map primCommand) (perform p (accept s)) := runAll_cons_of_next (hexec h) _
      _ = .next (performAll (q :: qs) (accept (perform p (accept s)))) := ih q hready
      _ = .next (performAll (p :: q :: qs) (accept s)) := by rw [accept_perform_accept]; rfl

/-- Settles O16: the lists are the commands of `tstartPrims` and `cresetPrims`, so `runAll_primCommands` gives the bodies of the two
sequences. -/
theorem sequencesAreTheirPrimitives : Obligations.SequencesAreTheirPrimitives := by
  intro s h
  constructor
  · rw [exec_of_ready .tstart h]
    exact runAll_primCommands .clockHigh tstartPrims.tail h
  · rw [exec_of_ready .creset h]
    exact runAll_primCommands .dataRelease cresetPrims.tail h

/-! ### The two sequences as commands (R100, R101) -/

/-- Settles O14: the body is `performAll_tstart`, whose lines after it do not depend on those before. -/
theorem transmissionStartCommand : Obligations.TransmissionStartCommand := by
  refine ⟨encodedAlone_of_noOperand (i := .tstart) rfl (fun _ => rfl) (fun _ => rfl), refusesClosed_of_needsOpen rfl, fun s h => ?_⟩
  rw [exec_of_ready .tstart h]
  exact congrArg Host.Outcome.next (performAll_tstart (accept s))

/-- Settles O15: the body is `performAll_creset`; the events of R101 are counted. -/
theorem resetSequenceCommand : Obligations.ResetSequenceCommand := by
  refine ⟨encodedAlone_of_noOperand (i := .creset) rfl (fun _ => rfl) (fun _ => rfl), refusesClosed_of_needsOpen rfl, rfl, rfl,
    fun s h => ?_⟩
  rw [exec_of_ready .creset h]
  exact congrArg Host.Outcome.next (performAll_creset (accept s))

end Sys2Proof.Machine

/-! Proofs of the statements of spec 42_byte_transceiver.md. -/
namespace Sys2Proof.Machine

open Sys2Proof

/-! ### The events of one bit (R111, R116) -/

/-- Every transmitted bit counts the same, but that its value decides which of the two data primitives it performs. -/
theorem sendBitEvents_counts (b : Bool) :
    (sendBitEvents b).length = 8 ∧ (sendBitEvents b).count .ckHigh = 1 ∧ (sendBitEvents b).count .ckLow = 2 ∧
      (sendBitEvents b).count .dtLow + (sendBitEvents b).count .dtRel = 1 ∧ (sendBitEvents b).count .delay = 4 ∧
      (sendBitEvents b).countP isSample = 0 := by
  cases b <;> decide

theorem readBitEvents_counts (b : Bool) :
    (readBitEvents b).length = 5 ∧ (readBitEvents b).count .ckHigh = 1 ∧ (readBitEvents b).count .ckLow = 1 ∧
      (readBitEvents b).count .delay = 2 ∧ (readBitEvents b).countP isSample = 1 ∧
      (readBitEvents b).count .dtLow = 0 ∧ (readBitEvents b).count .dtRel = 0 := by
  cases b <;> decide

/-! ### The events of one byte (R113, R119) -/

theorem sendBits_counts (bs : List Bool) :
    (bs.flatMap sendBitEvents).length = 8 * bs.length ∧ (bs.flatMap sendBitEvents).count .ckHigh = bs.length ∧
      (bs.flatMap sendBitEvents).count .ckLow = 2 * bs.length ∧
      (bs.flatMap sendBitEvents).count .dtLow + (bs.flatMap sendBitEvents).count .dtRel = bs.length ∧
      (bs.flatMap sendBitEvents).count .delay = 4 * bs.length ∧ (bs.flatMap sendBitEvents).countP isSample = 0 := by
  induction bs with
  | nil => decide
  | cons b bs ih =>
    have hb := sendBitEvents_counts b
    simp only [List.flatMap_cons, List.length_append, List.count_append, List.countP_append, List.length_cons]
    omega

/-- The events of a send are those of its eight bits and of the acknowledgment phase, the ninth pulse (R110, R112). -/
theorem sendEvents_eq (v : Byte) (a : Bool) :
    sendEvents v a = (bitsMsbFirst v).flatMap sendBitEvents ++ [.dtRel, .delay, .ckHigh, .delay, .sample a, .ckLow, .delay] := by
  simp [sendEvents, bitsMsbFirst]

theorem sendEvents_counts (v : Byte) (a : Bool) :
    (sendEvents v a).length = 71 ∧ (sendEvents v a).count .ckHigh = 9 ∧ (sendEvents v a).count .ckLow = 17 ∧
      (sendEvents v a).count .dtLow + (sendEvents v a).count .dtRel = 9 ∧ (sendEvents v a).count .delay = 35 ∧
      (sendEvents v a).countP isSample = 1 := by
  have hbits := sendBits_counts (bitsMsbFirst v)
  have hlength : (bitsMsbFirst v).length = 8 := rfl
  rw [hlength] at hbits
  obtain ⟨hlen, hhigh, hlow, hdata, hdelay, hsample⟩ := hbits
  simp only [sendEvents_eq, List.length_append, List.count_append, List.countP_append, hlen, hhigh, hlow, hdelay, hsample]
  refine ⟨rfl, rfl, rfl, ?_, rfl, rfl⟩
  exact (Nat.add_add_add_comm ..).trans (congrArg (· + 1) hdata)

theorem readEvents_counts (a : Bool) (r : Byte) :
    (readEvents a r).length = (if a then 48 else 40) ∧ (readEvents a r).count .ckHigh = (if a then 9 else 8) ∧
      (readEvents a r).count .ckLow = (if a then 9 else 8) ∧ (readEvents a r).count .delay = (if a then 20 else 16) ∧
      (readEvents a r).countP isSample = 8 ∧ (readEvents a r).count .dtLow = (if a then 1 else 0) ∧
      (readEvents a r).count .dtRel = (if a then 1 else 0) := by
  cases a with
  | false => simp [readEvents, readBitEvents_counts]
  | true => simp [readEvents, readBitEvents_counts, readAckEvents, isSample]

/-! ### `SENDB` (R110 to R113) -/

/-- Settles O17: the body is `sendByte_eq`, in which accepting the command shows as `ERR` alone. -/
theorem sendByteCommand : Obligations.SendByteCommand := by
  refine ⟨fun v => decode_eq_command_iff.mpr (wordWith_commandWord 3 0 v), fun _ => refusesClosed_of_needsOpen rfl,
    sendEvents_counts, fun v s h => ?_⟩
  rw [exec_of_ready (.sendb v) h]
  exact congrArg Host.Outcome.next (sendByte_eq v (accept s))

/-! ### `READB` (R115 to R119) -/

/-- Check 4 of R74 fails on an operand of `READB` other than 0 and 1. -/
theorem not_wellFormed_readb {imm : Byte} (h0 : imm ≠ 0) (h1 : imm ≠ 1) : (Fields.mk 3 1 imm).wellFormed = false := by
  have hhigh : imm.extractLsb' 1 7 ≠ 0 := by
    intro hz
    have hbit := eq_bit_zero_of_high_bits imm hz
    split at hbit
    · exact h1 hbit
    · exact h0 hbit
  have hreadb : (Fields.mk 3 1 imm).readbOk = false := by
    simpa [Fields.readbOk, Fields.isReadb] using hhigh
  rw [Fields.wellFormed, hreadb, Bool.and_false]

theorem raisesIllegal_readb {imm : Byte} (h0 : imm ≠ 0) (h1 : imm ≠ 1) : RaisesIllegal (wordWith 0x3100 imm) := by
  apply raisesIllegal_of_not_wellFormed
  have hword : wordWith 0x3100 imm = commandWord 3 1 imm := wordWith_commandWord 3 1 imm
  rw [hword, fieldsOf_commandWord]
  exact not_wellFormed_readb h0 h1

/-- Settles O18: the two cases of the data line are `readByte_device` and `readByte_low`, in which accepting the command shows as
`ERR` alone. -/
theorem readByteCommand : Obligations.ReadByteCommand := by
  refine ⟨⟨decodeEncodeRoundTrip (.readb false), decodeEncodeRoundTrip (.readb true), fun _ => raisesIllegal_readb⟩,
    fun _ => refusesClosed_of_needsOpen rfl, readEvents_counts, fun a s h => ?_⟩
  rw [exec_of_ready (.readb a) h]
  constructor
  · intro hdevice
    exact congrArg (fun read => Host.Outcome.next read.2) (readByte_device (s := accept s) a hdevice)
  · intro hlow
    exact congrArg (fun read => Host.Outcome.next read.2) (readByte_low (s := accept s) a hlow)

end Sys2Proof.Machine

/-! Proofs of the statements of spec 43_checksum_engine.md. -/
namespace Sys2Proof.Machine

open Sys2Proof

/-! ### `mirror` (R130, R142) -/

/-- A byte is determined by its bits taken from the far end; every law of `mirror` below is shown bit by bit with this. -/
theorem mirror_eq_of_bits {x y : Byte} (h : ∀ i < 8, x.getLsbD (7 - i) = y.getLsbD i) : mirror x = y := by
  apply BitVec.eq_of_getLsbD_eq
  intro i hi
  rw [mirror_getLsbD x i hi, h i hi]

@[simp] theorem mirror_mirror (x : Byte) : mirror (mirror x) = x := by
  apply mirror_eq_of_bits
  intro i hi
  rw [mirror_getLsbD x (7 - i) (by omega), Nat.sub_sub_self (by omega)]

theorem mirror_xor (x y : Byte) : mirror (x ^^^ y) = mirror x ^^^ mirror y :=
  mirror_eq_of_bits fun i hi => by simp only [BitVec.getLsbD_xor, mirror_getLsbD _ i hi]

theorem mirror_and (x y : Byte) : mirror (x &&& y) = mirror x &&& mirror y :=
  mirror_eq_of_bits fun i hi => by simp only [BitVec.getLsbD_and, mirror_getLsbD _ i hi]

theorem mirror_or (x y : Byte) : mirror (x ||| y) = mirror x ||| mirror y :=
  mirror_eq_of_bits fun i hi => by simp only [BitVec.getLsbD_or, mirror_getLsbD _ i hi]

/-- The mask with which the spec keeps a shifted byte to 8 bits changes nothing on a byte. -/
theorem and_byteMask (x : Byte) : x &&& 0xFF = x := BitVec.and_allOnes

/-- The bit a left shift brings in at the low end is the one a right shift brings in at the high end: both are 0. -/
theorem mirror_shiftLeft_one (x : Byte) : mirror (x <<< 1) = mirror x >>> 1 := by
  apply mirror_eq_of_bits
  intro i hi
  rw [BitVec.getLsbD_shiftLeft, BitVec.getLsbD_ushiftRight]
  by_cases hlast : i = 7
  · subst hlast
    exact (BitVec.getLsbD_of_ge (mirror x) 8 le_rfl).symm
  · rw [mirror_getLsbD x (1 + i) (by omega), show 7 - i - 1 = 7 - (1 + i) by omega]
    simp [show 7 - i < 8 by omega, show ¬ 7 - i = 0 by omega]

/-- Settles O19: each law is a lemma about `mirror` above; the bytes 01 and 00 show that it does not commute with `fold`. -/
theorem mirrorReversesBits : Obligations.MirrorReversesBits := by
  refine ⟨mirror_getLsbD, mirror_mirror, Function.Involutive.bijective mirror_mirror,
    fun x y => ⟨mirror_xor x y, mirror_and x y, mirror_or x y⟩, fun x => ?_, 0x01, 0x00, by decide⟩
  rw [and_byteMask, mirror_shiftLeft_one]

/-! ### `fold` (R131, R141) -/

/-- On equal arguments no bit-update uses the polynomial. -/
theorem foldBits_self (n : Nat) (a : Byte) : foldBits n a a = a <<< n := by
  induction n generalizing a with
  | zero => exact (BitVec.shiftLeft_zero a).symm
  | succ n ih =>
    have hbit : foldBit a a = a <<< 1 := by simp [foldBit]
    rw [foldBits, hbit, ih, Nat.add_comm, BitVec.shiftLeft_add]

theorem crcFold_self (a : Byte) : crcFold a a = 0 := (foldBits_self 8 a).trans (BitVec.shiftLeft_eq_zero le_rfl)

theorem crcFold_xor (a a' b b' : Byte) : crcFold (a ^^^ a') (b ^^^ b') = crcFold a b ^^^ crcFold a' b' :=
  foldBits_xor 8 a a' b b'

/-- `fold(c, c)` is 0, so combining both arguments with one byte `c` leaves the result. -/
theorem crcFold_xor_same (a b c : Byte) : crcFold (a ^^^ c) (b ^^^ c) = crcFold a b := by
  rw [crcFold_xor, crcFold_self]
  exact BitVec.xor_zero

/-- The table form of R141 (b): `T` is `crcFold 0`. -/
theorem crcFold_eq_table (a b : Byte) : crcFold a b = crcFold 0 (a ^^^ b) := by
  rw [← crcFold_xor_same a b a, BitVec.xor_self, BitVec.xor_comm b a]
  rfl

theorem crcFold_eq_xor_zero (a b : Byte) : crcFold a b = crcFold (a ^^^ b) 0 := by
  rw [← crcFold_xor_same a b b, BitVec.xor_self]
  rfl

theorem crcFold_comm (a b : Byte) : crcFold a b = crcFold b a := by
  rw [crcFold_eq_table a b, crcFold_eq_table b a, BitVec.xor_comm]

theorem crcFold_zero_xor (x y : Byte) : crcFold 0 (x ^^^ y) = crcFold 0 x ^^^ crcFold 0 y := crcFold_xor 0 0 x y

/-- The low bit of the polynomial is set, so a bit-update of an accumulator that is not 0 loses no bit. -/
theorem eq_zero_of_foldBit_zero : ∀ a : Byte, foldBit a 0 = 0 → a = 0 := by decide +kernel

theorem eq_zero_of_foldBits_zero (n : Nat) {a : Byte} (h : foldBits n a 0 = 0) : a = 0 := by
  induction n generalizing a with
  | zero => exact h
  | succ n ih => exact eq_zero_of_foldBit_zero a (ih h)

/-- Two operands with one value differ by a byte that `T` maps to 0 (`crcFold_xor`), and only 0 is mapped to 0. -/
theorem crcFold_right_injective (a : Byte) : Function.Injective (crcFold a) := by
  intro x y h
  have hzero : crcFold (x ^^^ y) 0 = 0 := calc
    crcFold (x ^^^ y) 0 = crcFold 0 (x ^^^ y) := crcFold_comm (x ^^^ y) 0
    _ = crcFold (a ^^^ a) (x ^^^ y) := by rw [BitVec.xor_self]; rfl
    _ = crcFold a x ^^^ crcFold a y := crcFold_xor a a x y
    _ = 0 := by rw [h]; exact BitVec.xor_self
  exact BitVec.xor_eq_zero_iff.mp (eq_zero_of_foldBits_zero 8 hzero)

theorem crcFold_right_bijective (a : Byte) : Function.Bijective (crcFold a) :=
  (crcFold_right_injective a).bijective_of_finite

theorem crcFold_left_bijective (b : Byte) : Function.Bijective fun a : Byte => crcFold a b := by
  simpa only [crcFold_comm _ b] using crcFold_right_bijective b

/-- Settles O21: all laws follow from linearity (`crcFold_xor`), `crcFold_self` and the kernel of one bit-update; the two check values
are computed. -/
theorem foldLaws : Obligations.FoldLaws := by
  refine ⟨fun a b => ⟨crcFold_eq_table a b, crcFold_eq_xor_zero a b⟩, fun x y => ⟨crcFold_zero_xor x y, ?_⟩, crcFold_right_bijective,
    crcFold_left_bijective, crcFold_self, by decide +kernel, by decide +kernel⟩
  rw [crcFold_eq_table, crcFold_zero_xor]

/-- One round of R131 on the pair of accumulator and input byte, with the rule's masks. -/
def foldRound (p : Byte × Byte) : Byte × Byte :=
  (if (p.1 ^^^ p.2).getLsbD 7 then ((p.1 <<< 1) &&& 0xFF) ^^^ 0x31 else (p.1 <<< 1) &&& 0xFF, (p.2 <<< 1) &&& 0xFF)

theorem foldRound_eq (a b : Byte) : foldRound (a, b) = (foldBit a b, b <<< 1) := by
  simp only [foldRound, and_byteMask]
  rfl

theorem foldBits_eq_iterate (n : Nat) (a b : Byte) : foldBits n a b = (foldRound^[n] (a, b)).1 := by
  induction n generalizing a b with
  | zero => rfl
  | succ n ih => rw [foldBits, ih, Function.iterate_succ_apply, foldRound_eq]

/-- Settles O20: `foldRound` is the statement's update, iterated eight times. -/
theorem foldIsEightBitUpdates : Obligations.FoldIsEightBitUpdates := foldBits_eq_iterate 8

/-! ### The four commands (R132, R135 to R137) -/

/-- The bytes that are their own mirror: the low half is free and the high half is its mirror image (R132). -/
theorem mirror_eq_self_iff : ∀ b : Byte, mirror b = b ↔ b ∈ ([0x00, 0x18, 0x24, 0x3C, 0x42, 0x5A, 0x66, 0x7E] ++
    [0x81, 0x99, 0xA5, 0xBD, 0xC3, 0xDB, 0xE7, 0xFF] : List Byte) := by
  decide +kernel

/-- Settles O22: the encoding is `wordWith_commandWord`, the fixed points `mirror_eq_self_iff`, the effect the body `mirrBody`. -/
theorem mirrorCommand : Obligations.MirrorCommand :=
  ⟨fun b => decode_eq_command_iff.mpr (wordWith_commandWord 4 0 b), fun _ => refusesClosed_of_needsOpen rfl, mirror_eq_self_iff,
    fun b _ h => exec_of_ready (.mirr b) h⟩

/-- Settles O23: `SEED` takes no operand; its body is `seedCrc`, and with `SR` 0 the seed is `seedOf_zero`. -/
theorem seedCommand : Obligations.SeedCommand := by
  refine ⟨encodedAlone_of_noOperand (i := .seed) rfl (fun _ => rfl) (fun _ => rfl), refusesClosed_of_needsOpen rfl,
    fun s h => ⟨exec_of_ready .seed h, fun hsr => ?_⟩⟩
  rw [hsr]
  exact seedOf_zero

/-- Settles O24: the two cases of the accumulator are `foldCrc_written` and `foldCrc_unwritten`, in which accepting the command shows
as `ERR` alone. -/
theorem foldCommand : Obligations.FoldCommand := by
  refine ⟨fun b => decode_eq_command_iff.mpr (wordWith_commandWord 4 2 b), fun _ => refusesClosed_of_needsOpen rfl,
    fun a => ⟨crcFold_self a, crcFold_comm a 0⟩, by decide, fun b s h => ?_⟩
  rw [exec_of_ready (.fold b) h]
  constructor
  · intro v hv
    exact congrArg Host.Outcome.next (foldCrc_written (s := accept s) hv b)
  · intro hnone
    exact congrArg Host.Outcome.next (foldCrc_unwritten (s := accept s) hnone b)

theorem beq_mirror_eq_decide (v b : Byte) : (mirror v == b) = decide (b = mirror v) := by
  rw [Bool.beq_eq_decide_eq, decide_eq_decide]
  exact eq_comm

theorem checkBody_written {s : State} {v : Byte} (h : s.crc = some v) (b : Byte) :
    checkBody b s = { s with matched := some (decide (b = mirror v)) } := by
  rw [checkBody, checkCrc_written h, beq_mirror_eq_decide]

theorem checkBody_unwritten {s : State} (h : s.crc = none) (b : Byte) :
    checkBody b s = { s with matched := some (decide (b = mirror (Config.freeByte s.draws))), draws := s.draws + 1 } := by
  rw [checkBody, checkCrc_unwritten h, beq_mirror_eq_decide]

/-- Settles O25: as O24, with `checkBody_written` and `checkBody_unwritten`. -/
theorem checkCommand : Obligations.CheckCommand := by
  refine ⟨fun b => decode_eq_command_iff.mpr (wordWith_commandWord 4 3 b), fun _ => refusesClosed_of_needsOpen rfl, fun b s h => ?_⟩
  rw [exec_of_ready (.check b) h]
  constructor
  · intro v hv
    exact congrArg Host.Outcome.next (checkBody_written (s := accept s) hv b)
  · intro hnone
    exact congrArg Host.Outcome.next (checkBody_unwritten (s := accept s) hnone b)

/-! ### The accumulator in an exchange (R138, R139) -/

/-- The seed overwrites the accumulator before its first fold, so the start of an exchange does not depend on it (R151). -/
theorem measStart_crc (c : Byte) (s : State) (old : Option Byte) : measStart c { s with crc := old } = measStart c s := by
  rw [measStart_eq, measStart_eq]
  rfl

theorem measBody_crc (c : Byte) (s : State) (old : Option Byte) : measBody c { s with crc := old } = measBody c s := by
  simp only [measBody, measStart_crc]

/-- Settles O31: an exchange sees the earlier accumulator at its start alone (`measStart_crc`). -/
theorem measureForgetsOldChecksum : Obligations.MeasureForgetsOldChecksum := by
  intro c s old h
  have hold : Ready { s with crc := old } := h
  rw [exec_of_ready (.meas c) h, exec_of_ready (.meas c) hold]
  exact congrArg Host.Outcome.next (measBody_crc c (accept s) old)

/-- The byte received from a line stuck at one level. -/
def stuckByte (level : Bool) : Byte := if level then 0xFF else 0x00

theorem answerByte_stuck {s : State} {k : Nat} {level : Bool} (h : ∀ i < 8, oracle s (k + i) = level) :
    answerByte s k = stuckByte level := by
  have h0 : oracle s k = level := h 0 (by decide)
  rw [answerByte, h0, h 1 (by decide), h 2 (by decide), h 3 (by decide), h 4 (by decide), h 5 (by decide), h 6 (by decide),
    h 7 (by decide)]
  cases level <;> rfl

theorem assembleValue_stuck (level : Bool) :
    assembleValue (stuckByte level) (stuckByte level) = if level then 0xFFFF else 0x0000 := by
  cases level <;> rfl

/-- With the seed 0 and either command byte of the document, three equal bytes 00 or FF do not verify (V7). -/
theorem checksumFlag_stuck {c : Byte} (hc : c = 0x03 ∨ c = 0x05) : ∀ level,
    checksumFlag (crcFold (crcFold (crcFold (seedOf 0) c) (stuckByte level)) (stuckByte level)) (stuckByte level) = false := by
  rcases hc with rfl | rfl <;> decide +kernel

/-- Settles O34: the exchange is `measBody_ready`; its three bytes are `stuckByte`, whose checksum is `checksumFlag_stuck`. -/
theorem stuckLineNeverVerifies : Obligations.StuckLineNeverVerifies := by
  intro c s k level hc hsr hready hk hstuck
  have hbyte (m : Nat) (hm : m ≤ 16) : answerByte (accept s) (k + (m + 1)) = stuckByte level :=
    answerByte_stuck fun i hi => by
      rw [oracle_congr (s := s) (t := accept s) rfl rfl, show k + (m + 1) + i = k + 1 + (m + i) by omega]
      exact hstuck (m + i) (by omega)
  have hbody := measBody_ready c (s := accept s) hk
  simp only [hbyte 0 (by decide), hbyte 8 (by decide), hbyte 16 (by decide), accept_sr, hsr, checksumFlag_stuck hc level,
    assembleValue_stuck] at hbody
  refine ⟨_, (exec_of_ready (.meas c) hready).trans (congrArg Host.Outcome.next hbody), rfl, rfl, rfl, rfl⟩

end Sys2Proof.Machine

/-! Proofs of the statements of spec 44_exchange_controller.md. -/
namespace Sys2Proof.Machine

open Sys2Proof

/-! ### `SRST`, `OPEN` and `CLOSE` (R160 to R167) -/

/-- Settles O35: the body is `softReset_eq`, in which accepting the command shows as `ERR` alone. -/
theorem softResetCommand : Obligations.SoftResetCommand := by
  refine ⟨encodedAlone_of_noOperand (i := .srst) rfl (fun _ => rfl) (fun _ => rfl), refusesClosed_of_needsOpen rfl, fun s h => ?_⟩
  rw [exec_of_ready .srst h]
  exact congrArg Host.Outcome.next (softReset_eq (accept s))

/-- `OPEN` and `CLOSE` do not ask for an open block: unless a hardware fault is recorded they are their bodies on the accepted state
(R181, R186). -/
theorem exec_of_unguarded {i : Instr} (hi : needsOpen i = false) {s : State} (h : s.halted = false) :
    exec i s = .next (commandBody i (accept s)) := by
  rw [exec_eq, hi]
  exact runCommand_unguarded h

/-- Settles O36: the idle form is `openBody_open`, the effective form `openBody_closed`. -/
theorem openCommand : Obligations.OpenCommand := by
  refine ⟨encodedAlone_of_noOperand (i := .openLines) rfl (fun _ => rfl) (fun _ => rfl), fun s hready => ?_, fun s hclosed => ?_⟩
  · obtain ⟨hhalted, hopen⟩ := hready
    rw [exec_of_unguarded rfl hhalted]
    exact congrArg Host.Outcome.next (openBody_open (s := accept s) hopen)
  · obtain ⟨hhalted, hopen⟩ := hclosed
    rw [exec_of_unguarded rfl hhalted]
    exact congrArg Host.Outcome.next (openBody_closed (s := accept s) hopen)

/-- Settles O37: the idle form is `closeBody_closed`, the effective form `exec_closeLines_ready`. -/
theorem closeCommand : Obligations.CloseCommand := by
  refine ⟨encodedAlone_of_noOperand (i := .closeLines) rfl (fun _ => rfl) (fun _ => rfl), fun s hclosed => ?_,
    fun _ hready => exec_closeLines_ready hready⟩
  obtain ⟨hhalted, hopen⟩ := hclosed
  rw [exec_of_unguarded rfl hhalted]
  exact congrArg Host.Outcome.next (closeBody_closed (s := accept s) hopen)

/-! ### `MEAS`: the two endings of the wait (R150 to R156) -/

/-- Settles O26: the exchange is `measBody_ready`, the value `assembleValue_eq`; seed, comparison and verdict are the model's own
definitions written out. -/
theorem measureReadyExchange : Obligations.MeasureReadyExchange := by
  intro c s k hready hk
  have hbody := measBody_ready c (s := accept s) hk
  simp only [assembleValue_eq] at hbody
  rw [exec_of_ready (.meas c) hready]
  exact congrArg Host.Outcome.next hbody

/-- Settles O27: the exchange is `measBody_timeout`, in which accepting the command shows as `ERR` alone. -/
theorem measureTimeout : Obligations.MeasureTimeout := by
  intro c s hready hnever
  rw [exec_of_ready (.meas c) hready]
  exact congrArg Host.Outcome.next (measBody_timeout c (s := accept s) hnever)

/-! ### The phases of an exchange (R157) -/

/-- The answer a wait asks for at its poll `k`, from 0, stands after the acknowledgment. -/
theorem oracle_measStart (c : Byte) (s : State) (k : Nat) : oracle (measStart c s) k = oracle s (k + 1) := by
  rw [measStart_eq, Nat.add_comm k 1]
  exact oracle_after 1 k rfl rfl

/-- The wait of an exchange succeeds exactly when one of its polls reads low (R153). -/
theorem waitReady_measStart_iff (c : Byte) (s : State) :
    (waitReady s.params.maxPolls (measStart c s)).1 = true ↔ ∃ k, ReadyAt s k := by
  have hline : (measStart c s).dt ≠ .low := by simp [measStart_eq]
  constructor
  · intro hwaited
    refine (readyAt_or_neverReady s).resolve_right fun hnever => ?_
    rw [waitReady_never _ hline fun i hi => (oracle_measStart c s i).trans (hnever i hi)] at hwaited
    exact Bool.false_ne_true hwaited
  · rintro ⟨k, hone, hmax, hsilent, hlow⟩
    obtain ⟨j, rfl⟩ : ∃ j, k = j + 1 := ⟨k - 1, by omega⟩
    obtain ⟨n, hn⟩ : ∃ n, s.params.maxPolls = j + (n + 1) := ⟨s.params.maxPolls - j - 1, by omega⟩
    have hhigh : ∀ i < j, oracle (measStart c s) i = true := fun i hi =>
      (oracle_measStart c s i).trans (hsilent (i + 1) (by omega) (by omega))
    rw [hn, waitReady_ready j n hline hhigh ((oracle_measStart c s j).trans hlow)]

@[simp] theorem sample_xstate (s : State) : (sample s).2.xstate = s.xstate := by
  by_cases hlow : s.dt = .low
  · rw [sample_low hlow]; rfl
  · rw [sample_device hlow]; rfl

@[simp] theorem waitReady_xstate (n : Nat) (s : State) : (waitReady n s).2.xstate = s.xstate := by
  induction n generalizing s with
  | zero => rfl
  | succ n ih =>
    have hpoll : (poll s).2.xstate = s.xstate := sample_xstate (sleep s.params.pollMs s)
    rw [waitReady]
    split
    · rw [ih, hpoll]
    · exact hpoll

@[simp] theorem readByte_xstate (a : Bool) (s : State) : (readByte a s).2.xstate = s.xstate := by
  by_cases hlow : s.dt = .low
  · rw [readByte_low a hlow]
  · rw [readByte_device a hlow]; rfl

/-- The transfer ends in the state its comparison decides (R155). -/
theorem measTransfer_xstate (s : State) : (measTransfer s).xstate = .verified ∨ (measTransfer s).xstate = .failed := by
  obtain ⟨m, hm⟩ : ∃ m, (measTransfer s).xstate = verdict m := ⟨_, rfl⟩
  rw [hm]
  cases m with
  | true => exact .inl rfl
  | false => exact .inr rfl

/-- Settles O30: the parts are those of `measBody`; each keeps the exchange state it is entered with, and the wait succeeds as
`waitReady_measStart_iff` says. -/
theorem exchangeStatePhases : Obligations.ExchangeStatePhases := by
  intro c s hready begun sent awaiting waited reading
  have hbegun : performAll tstartPrims begun = _ := performAll_tstart begun
  have hsent : sent = _ := sendByte_eq c (seedCrc (performAll tstartPrims begun))
  have hstarted : (performAll tstartPrims begun).xstate = .started := by rw [hbegun]; rfl
  have hsending : sent.xstate = .started := by rw [hsent, hbegun]; rfl
  have htrace : sent.trace = s.trace ++ (tstartEvents ++ sendEvents c (oracle s 0)) := by
    rw [hsent, hbegun]
    exact List.append_assoc ..
  have hwaiting : waited.2.xstate = .awaitingReady := waitReady_xstate _ awaiting
  have hread (a : Bool) {t : State} (ht : t.xstate = .readingData) : (readByte a t).2.xstate = .readingData :=
    (readByte_xstate a t).trans ht
  have hhigh := hread true (t := reading) rfl
  have hlow := hread true hhigh
  exact ⟨exec_of_ready (.meas c) hready, rfl, hstarted, hsending, htrace, rfl, waitReady_measStart_iff c (accept s), hwaiting, rfl,
    hhigh, hlow, hread false hlow, measTransfer_xstate reading, rfl⟩

/-! ### Two exchanges, and two devices (R158, R168) -/

/-- An exchange leaves the block ready for the next command. -/
theorem exec_meas_ready (c : Byte) {s : State} (h : Ready s) : ∃ t, exec (.meas c) s = .next t ∧ Ready t := by
  rcases readyAt_or_neverReady s with ⟨k, hk⟩ | hnever
  · exact ⟨_, measureReadyExchange c s k h hk, h⟩
  · exact ⟨_, measureTimeout c s h hnever, h⟩

/-- Settles O32: the first exchange leaves the block ready (`exec_meas_ready`), and the second forgets the accumulator (O31). -/
theorem measureAllRunsBoth : Obligations.MeasureAllRunsBoth := by
  intro s h
  obtain ⟨t, ht, hready⟩ := exec_meas_ready 0x03 h
  obtain ⟨u, hu, -⟩ := exec_meas_ready 0x05 hready
  refine ⟨t, u, ht, hready, hu, ?_, fun old => (measureForgetsOldChecksum 0x05 t old hready).trans hu⟩
  calc runAll [.meas 0x03, .meas 0x05] s
      = runAll [.meas 0x05] t := runAll_cons_of_next ht _
    _ = .next u := runAll_cons_of_next hu []

/-- Past the first answer of the list the device is the device of the rest. -/
theorem oracle_device_cons (s : State) (b : Bool) (rest : List Bool) (k : Nat) :
    oracle { s with device := b :: rest } (k + 1) = oracle { s with device := rest } k := by
  simp [oracle]

theorem answerByte_device_cons (s : State) (b : Bool) (rest : List Bool) (k : Nat) :
    answerByte { s with device := b :: rest } (k + 1) = answerByte { s with device := rest } k := by
  have hdrop : consume 1 { s with device := b :: rest } = { s with device := rest } := by simp [consume]
  rw [← hdrop, answerByte_consume, Nat.add_comm]

/-- No poll of an exchange reads the acknowledgment answer. -/
theorem readyAt_device_cons {s : State} {a : Bool} {rest : List Bool} {k : Nat} (h : ReadyAt { s with device := a :: rest } k)
    (b : Bool) : ReadyAt { s with device := b :: rest } k := by
  have hpoll (j : Nat) (hj : 1 ≤ j) : oracle { s with device := b :: rest } j = oracle { s with device := a :: rest } j := by
    obtain ⟨i, rfl⟩ : ∃ i, j = i + 1 := ⟨j - 1, by omega⟩
    rw [oracle_device_cons, oracle_device_cons]
  obtain ⟨hone, hmax, hsilent, hlow⟩ := h
  exact ⟨hone, hmax, fun j hj h1 => (hpoll j h1).trans (hsilent j hj h1), (hpoll k hone).trans hlow⟩

/-- The acknowledgment is answer 0, so two lists that differ in their first answer alone give the exchange the same polls and bytes
(R153, R158). -/
theorem measBody_device_cons (c : Byte) (s : State) (rest : List Bool) :
    measBody c { s with device := true :: rest } =
      { measBody c { s with device := false :: rest } with
        ack := some false
        trace := (measBody c { s with device := true :: rest }).trace } := by
  rcases readyAt_or_neverReady { s with device := false :: rest } with ⟨k, hk⟩ | hnever
  · have hbyte (b : Bool) (m : Nat) : answerByte { s with device := b :: rest } (k + (m + 1)) =
        answerByte { s with device := rest } (k + m) := answerByte_device_cons s b rest (k + m)
    rw [measBody_ready c hk, measBody_ready c (readyAt_device_cons hk true)]
    simp only [hbyte _ 0, hbyte _ 8, hbyte _ 16]
    rfl
  · have hnever' : NeverReady { s with device := true :: rest } := fun j hj =>
      (oracle_device_cons s true rest j).trans ((oracle_device_cons s false rest j).symm.trans (hnever j hj))
    rw [measBody_timeout c hnever, measBody_timeout c hnever']
    rfl

/-- Whatever the outcome, `ACK` is the negated first answer of the list (R112). -/
theorem measBody_ack (c : Byte) (s : State) : (measBody c s).ack = some (!oracle s 0) := by
  rcases readyAt_or_neverReady s with ⟨k, hk⟩ | hnever
  · rw [measBody_ready c hk]
  · rw [measBody_timeout c hnever]

/-- Settles O33: the two exchanges are compared by `measBody_device_cons`. -/
theorem acknowledgmentDoesNotSteer : Obligations.AcknowledgmentDoesNotSteer := by
  intro c s rest h
  have hbody := measBody_device_cons c (accept s) rest
  have hack (b : Bool) : (measBody c { accept s with device := b :: rest }).ack = some (!b) := measBody_ack c _
  refine ⟨measBody c { accept s with device := false :: rest }, measBody c { accept s with device := true :: rest },
    exec_of_ready (.meas c) h, exec_of_ready (.meas c) h, hack false, hack true, ?_⟩
  rw [hack true]
  exact hbody

/-! ### The event counts of the composite commands (R169) -/

/-- A list of `n` events, `pulses` of them `CkHigh` and `samples` of them `Sample`. -/
def Counts (es : List Event) (n pulses samples : Nat) : Prop :=
  es.length = n ∧ es.count .ckHigh = pulses ∧ es.countP isSample = samples

theorem Counts.append {es es' : List Event} {n n' p p' m m' : Nat} (h : Counts es n p m) (h' : Counts es' n' p' m') :
    Counts (es ++ es') (n + n') (p + p') (m + m') := by
  obtain ⟨rfl, rfl, rfl⟩ := h
  obtain ⟨rfl, rfl, rfl⟩ := h'
  exact ⟨List.length_append, List.count_append, List.countP_append⟩

theorem appends_of_counts {s t : State} {es : List Event} {n p m : Nat} (ht : t.trace = s.trace ++ es) (h : Counts es n p m) :
    Appends s t n p m :=
  ⟨es, ht, h⟩

theorem appends_of_trace_eq {s t : State} (ht : t.trace = s.trace) : Appends s t 0 0 0 :=
  appends_of_counts (es := []) (by rw [ht, List.append_nil]) ⟨rfl, rfl, rfl⟩

theorem counts_sendEvents (v : Byte) (a : Bool) : Counts (sendEvents v a) 71 9 1 := by
  obtain ⟨hlen, hhigh, -, -, -, hsample⟩ := sendEvents_counts v a
  exact ⟨hlen, hhigh, hsample⟩

theorem counts_readEvents (a : Bool) (r : Byte) : Counts (readEvents a r) (if a then 48 else 40) (if a then 9 else 8) 8 := by
  obtain ⟨hlen, hhigh, -, -, hsample, -⟩ := readEvents_counts a r
  exact ⟨hlen, hhigh, hsample⟩

/-- The start sequence and the command byte of an exchange. -/
theorem counts_measCommand (c : Byte) (a : Bool) : Counts (tstartEvents ++ sendEvents c a) 83 11 1 :=
  Counts.append (n := 12) (p := 2) (m := 0) ⟨rfl, rfl, rfl⟩ (counts_sendEvents c a)

theorem counts_silentPolls (ms n : Nat) : Counts (silentPolls ms n) (2 * n) 0 n := by
  induction n with
  | zero => exact ⟨rfl, rfl, rfl⟩
  | succ n ih =>
    have hone : Counts [.sleepMs ms, .sample true] 2 0 1 := ⟨rfl, rfl, rfl⟩
    rw [silentPolls_succ, Nat.mul_succ, Nat.add_comm (2 * n), Nat.add_comm n]
    exact hone.append ih

/-- A wait has one `Sample` for each poll, the last of them included. -/
theorem counts_readyPolls (ms : Nat) {k : Nat} (hk : 1 ≤ k) : Counts (readyPolls ms k) (2 * k) 0 k := by
  obtain ⟨j, rfl⟩ : ∃ j, k = j + 1 := ⟨k - 1, by omega⟩
  exact (counts_silentPolls ms j).append (es' := [.sleepMs ms, .sample false]) (n' := 2) (p' := 0) (m' := 1) ⟨rfl, rfl, rfl⟩

theorem counts_measReadyEvents (p : Params) (c : Byte) (a : Bool) {k : Nat} (hk : 1 ≤ k) (h l r : Byte) :
    Counts (measReadyEvents p c a k h l r) (219 + 2 * k) 37 (1 + k + 24) := by
  have hsum := ((((counts_measCommand c a).append (counts_readyPolls p.pollMs hk)).append (counts_readEvents true h)).append
    (counts_readEvents true l)).append (counts_readEvents false r)
  have hlen : 83 + 2 * k + 48 + 48 + 40 = 219 + 2 * k := by omega
  exact hlen ▸ hsum

theorem counts_measTimeoutEvents (p : Params) (c : Byte) (a : Bool) :
    Counts (measTimeoutEvents p c a) (83 + 2 * p.maxPolls) 11 (1 + p.maxPolls) :=
  (counts_measCommand c a).append (counts_silentPolls p.pollMs p.maxPolls)

theorem counts_softResetEvents (a : Bool) : Counts (softResetEvents a) 122 20 1 := by
  have hbefore : Counts (cresetEvents ++ tstartEvents) 50 11 0 := ⟨rfl, rfl, rfl⟩
  have hsettle : Counts [.sleepMs 11] 1 0 0 := ⟨rfl, rfl, rfl⟩
  exact (hbefore.append (counts_sendEvents 0x1E a)).append hsettle

theorem counts_openEvents (p : Params) (a : Bool) : Counts (openEvents p a) 125 20 1 :=
  Counts.append (n := 3) (p := 0) (m := 0) ⟨rfl, rfl, rfl⟩ (counts_softResetEvents a)

/-- Settles O39: the events are those of O26, O27 and O35 to O37, counted above. -/
theorem compositeEventCounts : Obligations.CompositeEventCounts := by
  obtain ⟨-, -, hsrst⟩ := softResetCommand
  obtain ⟨-, hidleOpen, hopen⟩ := openCommand
  obtain ⟨-, hidleClose, hclose⟩ := closeCommand
  exact
    ⟨fun c s k h hk => ⟨_, measureReadyExchange c s k h hk, appends_of_counts rfl (counts_measReadyEvents _ _ _ hk.1 _ _ _)⟩,
      fun c s h hnever => ⟨_, measureTimeout c s h hnever, appends_of_counts rfl (counts_measTimeoutEvents _ _ _)⟩,
      fun s h => ⟨_, hsrst s h, appends_of_counts rfl (counts_softResetEvents _)⟩,
      fun s h => ⟨_, hopen s h, appends_of_counts rfl (counts_openEvents _ _)⟩,
      fun s h => ⟨_, hidleOpen s h, appends_of_trace_eq rfl⟩,
      fun s h => ⟨_, hclose s h, appends_of_counts rfl ⟨rfl, rfl, rfl⟩⟩,
      fun s h => ⟨_, hidleClose s h, appends_of_trace_eq rfl⟩⟩

end Sys2Proof.Machine

/-! Proofs of the statements of spec 60_exceptions.md. -/
namespace Sys2Proof.Machine

open Sys2Proof

/-! ### The two faults of a command (R181, R182) -/

/-- Settles O2: the word is rejected at the command port, and a block that is not halted moves its index past it (R12). -/
theorem reservedWordRaisesIllegalCommand : Obligations.ReservedWordRaisesIllegalCommand := by
  intro s w hw hh hill
  have hport : runWord w s = .next { s with err := .illegalCommand } := raisesIllegal_of_not_wellFormed hill s hh
  rw [step_of_nextWord hw, hport]
  simp [advanceOutcome, advance, hh]

theorem needsOpen_of_ne {i : Instr} (hopen : i ≠ .openLines) (hclose : i ≠ .closeLines) : needsOpen i = true := by
  cases i with
  | openLines => exact absurd rfl hopen
  | closeLines => exact absurd rfl hclose
  | ckh | ckl | dlo | drl | dly | tstart | creset | sendb | readb | mirr | seed | fold | check | meas | srst => rfl

/-- The body of an accepted command leaves `ERR` at the 0 that the acceptance wrote (R187, R188). -/
theorem commandBody_accept_err (i : Instr) (s : State) : (commandBody i (accept s)).err = .noFault :=
  (commandBody_effect i (accept s)).err

/-- Settles O3: the check of the lifecycle flag refuses the guarded commands, and `OPEN` and `CLOSE` are accepted without it. -/
theorem closedBlockRaisesNotOpen : Obligations.ClosedBlockRaisesNotOpen := by
  refine ⟨fun i s hopen hclose hh hclosed => ?_, fun s hh => ?_⟩
  · exact refusesClosed_of_needsOpen (needsOpen_of_ne hopen hclose) s ⟨hh, hclosed⟩
  · exact ⟨_, _, exec_of_unguarded rfl hh, commandBody_accept_err .openLines s,
      exec_of_unguarded rfl hh, commandBody_accept_err .closeLines s⟩

/-! ### The order of the checks (R186) -/

/-- Settles O4: `HALTED`, then the decoding, then the cases of a decoded command (`exec_cases`); each recorded fault is an update of
`ERR` alone. -/
theorem faultPriority : Obligations.FaultPriority := by
  intro w s
  rcases Bool.eq_false_or_eq_true s.halted with hh | hh
  · exact ⟨_, runWord_halted hh w, (if_pos hh).symm, fun _ => rfl⟩
  · rcases hd : decode w with i | why
    · obtain ⟨t, ht⟩ := exec_next i s
      refine ⟨t, (runWord_command hh hd).trans ht, ?_⟩
      rcases exec_cases ht with ⟨hhalted, -⟩ | ⟨-, hclosed, hneeds, rfl⟩ | ⟨-, hopen, he⟩
      · exact absurd (hh.symm.trans hhalted) (by decide)
      · exact ⟨by simp [hh, hneeds, hclosed], fun _ => rfl⟩
      · have herr : t.err = .noFault := he.err
        have hpass : (needsOpen i && !s.isOpen) = false := by simpa using hopen
        exact ⟨by simp [hh, herr, hpass], fun hfault => absurd herr hfault⟩
    · exact ⟨_, runWord_illegal hh hd, by simp [hh], fun _ => rfl⟩

end Sys2Proof.Machine

/-! Proofs of the statements of spec 70_reset_and_hazards.md. -/
namespace Sys2Proof.Machine

open Sys2Proof

/-! ### Reset and `CLOSE` (R210, R213, R215) -/

/-- Settles O6: the list after reset is empty, so its index holds no word. -/
theorem idleWithoutCommand : Obligations.IdleWithoutCommand :=
  ⟨fun _ h => step_of_noWord h, fun _ => step_of_noWord rfl⟩

/-- Settles O38: `CLOSE` writes every field of the reset table but `SR`, `HALTED` and `POLLCNT`; of these the invariant gives the first
two. -/
theorem closeReturnsToReset : Obligations.CloseReturnsToReset := by
  intro s hinv hopen
  refine ⟨_, exec_closeLines_ready ⟨hinv.notHalted, hopen⟩, ?_⟩
  rw [hinv.srZero, hinv.notHalted]
  rfl

/-! ### Nominal durations (R230, R231) -/

theorem nominalMicros_append (p : Params) (es es' : List Event) :
    nominalMicros p (es ++ es') = nominalMicros p es + nominalMicros p es' := by
  rw [nominalMicros, List.map_append, List.sum_append, nominalMicros, nominalMicros]

/-- The events last a number of delays and a number of milliseconds of sleep. -/
def Lasts (p : Params) (es : List Event) (delays ms : Nat) : Prop := nominalMicros p es = delays * p.tDelay + 1000 * ms

theorem Lasts.append {p : Params} {es es' : List Event} {d d' m m' : Nat} (h : Lasts p es d m) (h' : Lasts p es' d' m') :
    Lasts p (es ++ es') (d + d') (m + m') := by
  rw [Lasts, nominalMicros_append, h, h', Nat.add_mul, Nat.mul_add, Nat.add_add_add_comm]

theorem takes_of_lasts {s t : State} {es : List Event} {d m : Nat} (ht : t.trace = s.trace ++ es) (h : Lasts s.params es d m) :
    Takes s t (d * s.params.tDelay + 1000 * m) :=
  ⟨es, ht, h⟩

theorem lasts_sleep (p : Params) (n : Nat) : Lasts p [.sleepMs n] 0 n := by
  simp [Lasts, nominalMicros, eventMicros]

/-- Whether an event is one of the block's sleeps (R8). -/
def isSleep : Event → Bool
  | .sleepMs _ => true
  | _ => false

/-- Events with no sleep among them last their delays (R231). -/
theorem lasts_of_no_sleep (p : Params) {es : List Event} (h : es.any isSleep = false) : Lasts p es (es.count .delay) 0 := by
  induction es with
  | nil => simp [Lasts, nominalMicros]
  | cons e es ih =>
    rw [List.any_cons, Bool.or_eq_false_iff] at h
    obtain ⟨he, hes⟩ := h
    have hone : Lasts p [e] ([e].count .delay) 0 := by
      cases e with
      | sleepMs n => exact Bool.noConfusion he
      | delay | ckHigh | ckLow | dtLow | dtRel | sample | cfgOutLow | relLine => simp [Lasts, nominalMicros, eventMicros]
    have hcount : (e :: es).count .delay = [e].count .delay + es.count .delay := List.count_append (l₁ := [e])
    exact hcount ▸ hone.append (ih hes)

theorem lasts_tstartEvents (p : Params) : Lasts p tstartEvents 6 0 := lasts_of_no_sleep p rfl

theorem lasts_cresetEvents (p : Params) : Lasts p cresetEvents 19 0 := lasts_of_no_sleep p rfl

theorem sendBitEvents_no_sleep (b : Bool) : (sendBitEvents b).any isSleep = false := by cases b <;> rfl

theorem lasts_sendEvents (p : Params) (v : Byte) (a : Bool) : Lasts p (sendEvents v a) 35 0 := by
  obtain ⟨-, -, -, -, hdelay, -⟩ := sendEvents_counts v a
  have hsleep : (sendEvents v a).any isSleep = false := by simp [sendEvents, sendBitEvents_no_sleep, isSleep]
  exact hdelay ▸ lasts_of_no_sleep p hsleep

theorem lasts_readEvents (p : Params) (a : Bool) (r : Byte) : Lasts p (readEvents a r) (if a then 20 else 16) 0 := by
  obtain ⟨-, -, -, hdelay, -⟩ := readEvents_counts a r
  have hsleep : (readEvents a r).any isSleep = false := by cases a <;> rfl
  exact hdelay ▸ lasts_of_no_sleep p hsleep

theorem lasts_silentPolls (p : Params) (n : Nat) : Lasts p (silentPolls p.pollMs n) 0 (p.pollMs * n) := by
  induction n with
  | zero => exact lasts_of_no_sleep p rfl
  | succ n ih =>
    have hpoll : Lasts p [.sleepMs p.pollMs, .sample true] 0 p.pollMs :=
      (lasts_sleep p p.pollMs).append (lasts_of_no_sleep p (es := [.sample true]) rfl)
    rw [silentPolls_succ, Nat.mul_succ, Nat.add_comm (p.pollMs * n)]
    exact hpoll.append ih

/-- A wait sleeps before each poll, the one that reads low included (R153). -/
theorem lasts_readyPolls (p : Params) {k : Nat} (hk : 1 ≤ k) : Lasts p (readyPolls p.pollMs k) 0 (p.pollMs * k) := by
  obtain ⟨j, rfl⟩ : ∃ j, k = j + 1 := ⟨k - 1, by omega⟩
  have hlast : Lasts p [.sleepMs p.pollMs, .sample false] 0 p.pollMs :=
    (lasts_sleep p p.pollMs).append (lasts_of_no_sleep p (es := [.sample false]) rfl)
  exact (lasts_silentPolls p j).append hlast

/-- The start sequence and the command byte of an exchange. -/
theorem lasts_measCommand (p : Params) (c : Byte) (a : Bool) : Lasts p (tstartEvents ++ sendEvents c a) 41 0 :=
  (lasts_tstartEvents p).append (lasts_sendEvents p c a)

theorem lasts_measReadyEvents (p : Params) (c : Byte) (a : Bool) {k : Nat} (hk : 1 ≤ k) (h l r : Byte) :
    Lasts p (measReadyEvents p c a k h l r) 97 (p.pollMs * k) := by
  have hsum := ((((lasts_measCommand p c a).append (lasts_readyPolls p hk)).append (lasts_readEvents p true h)).append
    (lasts_readEvents p true l)).append (lasts_readEvents p false r)
  exact Nat.zero_add (p.pollMs * k) ▸ hsum

theorem lasts_measTimeoutEvents (p : Params) (c : Byte) (a : Bool) :
    Lasts p (measTimeoutEvents p c a) 41 (p.pollMs * p.maxPolls) :=
  Nat.zero_add (p.pollMs * p.maxPolls) ▸ (lasts_measCommand p c a).append (lasts_silentPolls p p.maxPolls)

theorem lasts_softResetEvents (p : Params) (a : Bool) : Lasts p (softResetEvents a) 60 11 :=
  (((lasts_cresetEvents p).append (lasts_tstartEvents p)).append (lasts_sendEvents p 0x1E a)).append (lasts_sleep p 11)

theorem lasts_openEvents (p : Params) (a : Bool) : Lasts p (openEvents p a) 60 31 := by
  have hconfigure : Lasts p [.cfgOutLow p.clockLine, .cfgOutLow p.dataLine] 0 0 := lasts_of_no_sleep p rfl
  exact (hconfigure.append (lasts_sleep p 20)).append (lasts_softResetEvents p a)

/-- `READB` takes the same time whether the block holds the data line or the device answers (R119). -/
theorem exec_readb_takes (a : Bool) {s : State} (h : Ready s) :
    ∃ t, exec (.readb a) s = .next t ∧ Takes s t ((if a then 20 else 16) * s.params.tDelay) := by
  obtain ⟨-, -, -, hread⟩ := readByteCommand
  obtain ⟨hdevice, hlow⟩ := hread a s h
  by_cases hline : s.dt = .low
  · exact ⟨_, hlow hline, takes_of_lasts rfl (lasts_readEvents _ a _)⟩
  · exact ⟨_, hdevice hline, takes_of_lasts rfl (lasts_readEvents _ a _)⟩

/-- Settles O40: the events are those the commands' own statements (O14, O15, O17, O18, O26, O27, O35, O36) print. -/
theorem nominalDurations : Obligations.NominalDurations := by
  obtain ⟨-, -, htstart⟩ := transmissionStartCommand
  obtain ⟨-, -, -, -, hcreset⟩ := resetSequenceCommand
  obtain ⟨-, -, -, hsend⟩ := sendByteCommand
  obtain ⟨-, -, hsrst⟩ := softResetCommand
  obtain ⟨-, -, hopen⟩ := openCommand
  refine
    ⟨fun s h => ⟨_, htstart s h, takes_of_lasts rfl (lasts_tstartEvents _)⟩,
      fun s h => ⟨_, hcreset s h, takes_of_lasts rfl (lasts_cresetEvents _)⟩,
      fun v s h => ⟨_, hsend v s h, takes_of_lasts rfl (lasts_sendEvents _ _ _)⟩,
      fun s h => exec_readb_takes false h,
      fun s h => exec_readb_takes true h,
      fun s h => ⟨_, hsrst s h, takes_of_lasts rfl (lasts_softResetEvents _ _)⟩,
      fun s h => ⟨_, hopen s h, takes_of_lasts rfl (lasts_openEvents _ _)⟩,
      fun c s k h hk => ⟨_, measureReadyExchange c s k h hk, ?_⟩,
      fun c s h hnever => ⟨_, measureTimeout c s h hnever, ?_⟩⟩
  · rw [Nat.mul_assoc 1000]
    exact takes_of_lasts rfl (lasts_measReadyEvents _ _ _ hk.1 _ _ _)
  · rw [Nat.mul_assoc 1000]
    exact takes_of_lasts rfl (lasts_measTimeoutEvents _ _ _)

end Sys2Proof.Machine
